-- ==== Sys2Proof/Word.lean ====
section
/-! DEFINITION. The value types of the spec (00_scope.md R5, R6) and the types the wire fields use.

`Int`, `Rat`, `Bool` and `Char` of R6 are Lean's own types: unbounded integers, exact rationals, truth values,
characters.  Every function over these types that a test could show wrong stands under `Sys2Proof/Machine/`. -/

namespace Sys2Proof

/-- R6: an integer 0..255.  Eight bits, numbered from 0 at the least significant bit (R5). -/
abbrev Byte := BitVec 8

/-- R6: `Str` is a list of `Char` (notes/assumptions/12.md). -/
abbrev Str := List Char

/-- R6: one raw numeric request for one output channel (glossary, "Intent").  `nan` stands for every non-numeric
value. -/
inductive Intent where
  | fin (q : Rat)
  | posInf
  | negInf
  | nan
  deriving DecidableEq, Repr

/-- Four values, one per channel: channel i of the spec is `ch`i (R24 to R26, R43). -/
structure Quad (α : Type) where
  ch0 : α
  ch1 : α
  ch2 : α
  ch3 : α
  deriving DecidableEq, Repr

/-- R170, R174, R175: the value of `linkQualityIndicator`.  `unknown` is the UndefinedLqi sentinel, a field value and
never an error response. -/
inductive Lqi where
  | known (q : Rat)
  | unknown
  deriving DecidableEq, Repr

end Sys2Proof
end

