-- ==== Sys2Proof/Syntax.lean ====
section
/-! DEFINITION. Requests as the port carries them (30_encoding.md R60 to R64) and the operations they select, one
constructor per row of spec/opcode_table.json. -/

namespace Sys2Proof

/-- R62, R63: one operand of an operand record, with the type the port carries it in. -/
inductive Operand where
  | byte (v : Byte)
  | int (v : Int)
  | optInt (v : Option Int)
  | bytes (l : List Byte)
  | intents (l : List Intent)
  | str (s : Str)
  deriving DecidableEq, Repr

/-- R60: a request is one header byte followed by the operand record of its operation, one field per operand.  The
record is typed, not a bit string. -/
structure Request where
  header   : Byte
  operands : List Operand
  deriving DecidableEq, Repr

/-- The rows of spec/opcode_table.json.  The first eleven are the operations of R62.  The last two are the wire frames
of R70 and R74: the table marks each "not a request", their layouts stand in Machine/Wire.lean, and as a request header
their byte (0x80, 0x81) is illegal (R61). -/
inductive Instr where
  /-- R102 -/
  | csum (bytes : List Byte)
  /-- R103 -/
  | hexb (v : Int)
  /-- R125 -/
  | setd (l : List Intent)
  /-- R126 -/
  | seta (l : List Intent)
  /-- R122 -/
  | setadr (a : Int)
  /-- R127 -/
  | rdcmd
  /-- R149 -/
  | enccmd
  /-- R150 -/
  | enc (d : List Intent) (a : List Intent) (addr : Option Int)
  /-- R181 -/
  | dec (line : Str)
  /-- R130 -/
  | wcfg (v : Byte)
  /-- R131 -/
  | rdcfg
  /-- R70, R61: the row of opcode byte 0x80, "not a request" -/
  | frameChangeOutput
  /-- R74, R61: the row of opcode byte 0x81, "not a request" -/
  | frameStatusNotify
  deriving DecidableEq, Repr

end Sys2Proof
end

