-- ==== Sys2Proof/WellFormed.lean ====
section
/-! DEFINITION. Which requests the port can carry and which of them select an operation (30_encoding.md R60 to R63). -/

namespace Sys2Proof

/-- The operand types of R62. -/
inductive OperandType where
  | byte
  | int
  | optInt
  | bytes
  | intents
  | str
  deriving DecidableEq, Repr

/-- The type of an operand value. -/
def Operand.type : Operand → OperandType
  | .byte _ => .byte
  | .int _ => .int
  | .optInt _ => .optInt
  | .bytes _ => .bytes
  | .intents _ => .intents
  | .str _ => .str

/-- R62: the operand record of each defined operation-select code; `none` for the five reserved codes. -/
def operandTypes (op : Nat) : Option (List OperandType) :=
  match op with
  | 0x1 => some [.bytes]
  | 0x2 => some [.int]
  | 0x3 => some [.intents]
  | 0x4 => some [.intents]
  | 0x5 => some [.int]
  | 0x6 => some []
  | 0x7 => some []
  | 0x8 => some [.intents, .intents, .optInt]
  | 0x9 => some [.str]
  | 0xA => some [.byte]
  | 0xB => some []
  | _ => none

/-- R60, R61: the operand record the header byte asks for.  A header with `H[7:4] ≠ 0` selects no operation. -/
def headerOperandTypes (h : Byte) : Option (List OperandType) :=
  if h.extractLsb' 4 4 = 0#4 then operandTypes (h.extractLsb' 0 4).toNat else none

/-- R60 to R63: the header selects an operation and the record has exactly that operation's fields. -/
def Request.wellFormed (r : Request) : Bool :=
  headerOperandTypes r.header == some (r.operands.map Operand.type)

/-- R63: the port carries no value outside the operation's operand types.  Under a header that selects no operation the
record is not read (R61), so nothing is asked of it. -/
def Request.portTyped (r : Request) : Bool :=
  (headerOperandTypes r.header).isNone || r.wellFormed

/-- R1, R62: the row is one of the eleven operations of the request port.  The two wire-frame rows are not requests. -/
def Instr.isOperation : Instr → Bool
  | .csum _ => true
  | .hexb _ => true
  | .setd _ => true
  | .seta _ => true
  | .setadr _ => true
  | .rdcmd => true
  | .enccmd => true
  | .enc _ _ _ => true
  | .dec _ => true
  | .wcfg _ => true
  | .rdcfg => true
  | .frameChangeOutput => false
  | .frameStatusNotify => false

/-- An instruction is well formed when a requester can issue it as an operation.  Its operands need no check of their
own: their Lean types are the types of R62. -/
def Instr.wellFormed (i : Instr) : Bool := i.isOperation

end Sys2Proof
end

