-- ==== Sys2Proof/Decode.lean ====
section
/-! DEFINITION. The request decoder (30_encoding.md R60 to R62), total on every header byte and every operand record,
then the encoder, then the two readings of a word of spec/opcode_table.json. -/

namespace Sys2Proof

/-- Why the decoder gives no instruction. -/
inductive DecodeError where
  /-- R61, R222: a reserved code, or `H[7:4] ≠ 0`.  The machine answers it with the IllegalOperation response. -/
  | illegalOperation
  /-- R63: the record does not have the types of R62.  The port carries no such record. -/
  | operandRecord
  deriving DecidableEq, Repr

/-- R60: `OP = H[3:0]`. -/
def opField (h : Byte) : BitVec 4 := h.extractLsb' 0 4

/-- R60: `H[7:4]`, which must be `0000`. -/
def zeroField (h : Byte) : BitVec 4 := h.extractLsb' 4 4

/-- R62: the operation map, for `H[7:4] = 0`. -/
def decodeOp (op : Nat) (operands : List Operand) : Except DecodeError Instr :=
  match op with
  | 0x1 => match operands with
    | [.bytes b] => .ok (.csum b)
    | _ => .error .operandRecord
  | 0x2 => match operands with
    | [.int v] => .ok (.hexb v)
    | _ => .error .operandRecord
  | 0x3 => match operands with
    | [.intents l] => .ok (.setd l)
    | _ => .error .operandRecord
  | 0x4 => match operands with
    | [.intents l] => .ok (.seta l)
    | _ => .error .operandRecord
  | 0x5 => match operands with
    | [.int a] => .ok (.setadr a)
    | _ => .error .operandRecord
  | 0x6 => match operands with
    | [] => .ok .rdcmd
    | _ => .error .operandRecord
  | 0x7 => match operands with
    | [] => .ok .enccmd
    | _ => .error .operandRecord
  | 0x8 => match operands with
    | [.intents d, .intents a, .optInt addr] => .ok (.enc d a addr)
    | _ => .error .operandRecord
  | 0x9 => match operands with
    | [.str line] => .ok (.dec line)
    | _ => .error .operandRecord
  | 0xA => match operands with
    | [.byte v] => .ok (.wcfg v)
    | _ => .error .operandRecord
  | 0xB => match operands with
    | [] => .ok .rdcfg
    | _ => .error .operandRecord
  | _ => .error .illegalOperation

/-- R61: the two steps of decoding.  The header bytes 0x80 and 0x81 are the table's wire-frame rows and are named here;
their meaning as requests is the IllegalOperation that R61 gives every header with `H[7:4] ≠ 0`
(notes/assumptions/4.md).  No operand is read under such a header. -/
def decode (r : Request) : Except DecodeError Instr :=
  if zeroField r.header = 0#4 then
    decodeOp (opField r.header).toNat r.operands
  else if r.header = 0x80#8 then .ok .frameChangeOutput
  else if r.header = 0x81#8 then .ok .frameStatusNotify
  else .error .illegalOperation

/-- R62: the request of an instruction: header `H = OP` and the operand record in the table's order. -/
def encode : Instr → Request
  | .csum b => ⟨0x01#8, [.bytes b]⟩
  | .hexb v => ⟨0x02#8, [.int v]⟩
  | .setd l => ⟨0x03#8, [.intents l]⟩
  | .seta l => ⟨0x04#8, [.intents l]⟩
  | .setadr a => ⟨0x05#8, [.int a]⟩
  | .rdcmd => ⟨0x06#8, []⟩
  | .enccmd => ⟨0x07#8, []⟩
  | .enc d a addr => ⟨0x08#8, [.intents d, .intents a, .optInt addr]⟩
  | .dec line => ⟨0x09#8, [.str line]⟩
  | .wcfg v => ⟨0x0A#8, [.byte v]⟩
  | .rdcfg => ⟨0x0B#8, []⟩
  | .frameChangeOutput => ⟨0x80#8, []⟩
  | .frameStatusNotify => ⟨0x81#8, []⟩

/-- The operand of each type that stands in for "every bit above the table's bits is 0" (notes/assumptions/5.md).  The
operand record is typed and has no bits, so zero means: the number 0, the absent address, the empty byte list, four zero
intents, and the inbound line whose 24 bytes are all zero. -/
def zeroOperand : OperandType → Operand
  | .byte => .byte 0#8
  | .int => .int 0
  | .optInt => .optInt none
  | .bytes => .bytes []
  | .intents => .intents (List.replicate 4 (.fin 0))
  | .str => .str (Char.ofNat 0x3A :: (List.replicate 48 (Char.ofNat 0x30) ++ [Char.ofNat 0x0D, Char.ofNat 0x0A]))

/-- The request a word of spec/opcode_table.json stands for: the word is the header byte, the record is zero. -/
def tableRequest (w : Nat) : Request :=
  let h : Byte := BitVec.ofNat 8 w
  ⟨h, ((headerOperandTypes h).getD []).map zeroOperand⟩

/-- The instruction the decoder reads from a word of spec/opcode_table.json.  Every row gives 8 bits, the header byte;
no other width is a request. -/
def decodeTableWord (nbits w : Nat) : Option Instr :=
  if nbits = 8 ∧ w < 256 then
    match decode (tableRequest w) with
    | .ok i => some i
    | .error _ => none
  else none

end Sys2Proof
end

