-- ==== Sys2Proof/Config.lean ====
section
/-! DEFINITION. What one implementation fixes (00_scope.md R3), and the one free value the spec leaves open
(20_memory.md R46).  Every other quantity is fixed by the spec (R4). -/

namespace Sys2Proof.Config

/-- R3: the two values of the implementation parameter `LQI_CAL`.  `asWritten` is the default.  The state carries the
parameter (`State.lqiCal`), so that a statement about every state holds for both values. -/
inductive LqiCal where
  | asWritten
  | linearDbm
  deriving DecidableEq, Repr

/-- R46: the order in which the port accepts simultaneous requests is not fixed.  The n-th choice among the lanes that
have a request waiting is this number, taken modulo how many there are (`Machine.pickLane`).  It is a FREE VALUE: it has
no body, so nothing can be proved about which lane is chosen (notes/assumptions/3.md). -/
opaque acceptChoice : Nat → Nat

end Sys2Proof.Config
end

