-- ==== Sys2Proof/Machine/State.lean ====
section
/-! DEFINITION. The state of CKC (10_state.md), the responses it gives (60_exceptions.md R220, R221) and the reasons a
step can stop.  `cmd` and `cfg` are the architectural state (R20) and `refused` is the mark of R31.  The other fields are
the model's own: the parameter of R3, and the two sides of the request port, which R20 keeps out of the hardware's state
(notes/assumptions/1.md, 2.md). -/

namespace Sys2Proof.Machine

/-- R20, R24 to R26: the writable fields of the command register CMD.  The hardwired fields `version` and `opcode` (R27)
are constants with no storage: `readVersion` and `readOpcode` in Ops.lean. -/
structure Cmd where
  /-- R24: the address id, 8 bits -/
  addr    : Byte
  /-- R25: the four digital intents -/
  digital : Quad Intent
  /-- R26: the four analog intents -/
  analog  : Quad Intent
  deriving DecidableEq, Repr

/-- R20, R28, R29: the configuration register CFG.  Bits 7:1 are stuck at 0 and have no storage: `readCfg` in Ops.lean
gives the whole byte. -/
structure Cfg where
  /-- R28: CFG bit 0 -/
  chken : Bool
  deriving DecidableEq, Repr

/-- R170: the status record, "and no others" of its fields. -/
structure StatusRecord where
  senderAddressId              : Byte
  packetId                     : Byte
  lqiRaw                       : Byte
  linkQualityIndicator         : Lqi
  senderSerialNumber           : Nat
  receiverAddressId            : Byte
  timestampSeconds             : Rat
  relayCount                   : Byte
  powerSupplyVoltageMillivolts : Nat
  digital                      : Quad Int
  analog                       : Quad Int
  deriving DecidableEq, Repr

/-- R62, R220: what a response carries. -/
inductive Payload where
  /-- "none" of R62, and the payload of every error response -/
  | empty
  | byte (v : Byte)
  | str (s : Str)
  /-- R127 -/
  | command (addr : Byte) (digital analog : Quad Intent) (version opcode : Byte)
  | status (r : StatusRecord)
  deriving DecidableEq, Repr

/-- R221: the named response codes.  Flags.lean gives their 3-bit numbers. -/
inductive ResponseCode where
  | ok
  | invalidChannelCount
  | malformedFrame
  | checksumMismatch
  /-- reserved: never sent -/
  | undefinedLqi
  | illegalOperation
  deriving DecidableEq, Repr

/-- R8, R221: the kinds an operation can raise. -/
inductive ErrorKind where
  | invalidChannelCount
  | malformedFrame
  | checksumMismatch
  | illegalOperation
  deriving DecidableEq, Repr

/-- R8, R228: the one reason a request is refused. -/
inductive RefuseReason where
  | digitalIntentNotNumeric
  deriving DecidableEq, Repr

/-- R220: one response, and the requester it goes to. -/
structure Response where
  requester : Nat
  code      : ResponseCode
  payload   : Payload
  deriving DecidableEq, Repr

/-- What the outside can present to CKC between two operations: a request on the port (R60), or the reset input being
asserted (R240, R241). -/
inductive PortInput where
  | request (r : Request)
  | reset
  deriving DecidableEq, Repr

/-- The state. -/
structure State where
  /-- R20: the command register -/
  cmd       : Cmd
  /-- R20: the configuration register -/
  cfg       : Cfg
  /-- R31: the sticky mark `REFUSED`; not hardware state, no requester can read it -/
  refused   : Bool
  /-- R3: the implementation parameter `LQI_CAL`; no operation and no reset writes it -/
  lqiCal    : Config.LqiCal
  /-- R46: what each requester presents on the port and has not had accepted, its own order kept; lane k is requester k -/
  lanes     : List (List PortInput)
  /-- how many inputs have been accepted: which free value the next choice of a lane reads (R46) -/
  accepts   : Nat
  /-- the lane of the input being performed, to which its response goes (R220) -/
  serving   : Nat
  /-- R246: the responses of the run since the last reset, in accept order; no operation reads them (R23) -/
  responses : List Response
  deriving DecidableEq, Repr

/-- Why a step stops with a fault.  CKC itself has no traps (R226): neither fault can be reached while the state meets
`State.Inv` (Safety.lean; notes/assumptions/9.md). -/
inductive Fault where
  /-- Raised by `performRequest` (Machine/Perform.lean) for an operand record outside the types of R62.  SAFE: R63 says
  the port carries no such value, so the hardware has no behaviour to differ from. -/
  | operandRecordMistyped
  /-- Raised by `respondFrame` (Machine/Packer.lean) where a digital intent being packed is `posInf` or `nan`.  SAFE:
  R140 marks that case "never reached", and R25 keeps such an intent out of CMD. -/
  | digitalLaneNeverReached
  deriving DecidableEq, Repr

/-- Why a step gives an instruction no meaning. -/
inductive Refusal where
  /-- Raised by an arm of `exec` whose instruction is not modelled.  SAFE.  No arm of this model raises it. -/
  | notModelled (mnemonic : String)
  deriving DecidableEq, Repr

/-- R240: the state after reset.  `cmd`, `cfg` and `refused` are the table of R240; `lqiCal` is R3's default; nothing has
been presented, accepted or answered (notes/assumptions/1.md, 11.md). -/
def State.reset : State where
  cmd       := { addr    := 0x78#8,
                 digital := ⟨.fin (-1), .fin (-1), .fin (-1), .fin (-1)⟩,
                 analog  := ⟨.fin (-1), .fin (-1), .fin (-1), .fin (-1)⟩ }
  cfg       := { chken := true }
  refused   := false
  lqiCal    := .asWritten
  lanes     := []
  accepts   := 0
  serving   := 0
  responses := []

end Sys2Proof.Machine
end

