-- ==== Sys2Proof/Machine/Flags.lean ====
section
/-! DEFINITION. CKC has no flags (R23): "The only status a requester sees is the response code of each operation".  This
file holds the numbers of those codes (60_exceptions.md R221). -/

namespace Sys2Proof.Machine

/-- R221: the 3-bit number of a response code. -/
def ResponseCode.number : ResponseCode → BitVec 3
  | .ok => 0#3
  | .invalidChannelCount => 1#3
  | .malformedFrame => 2#3
  | .checksumMismatch => 3#3
  | .undefinedLqi => 4#3
  | .illegalOperation => 5#3

/-- R221: the code a number names; 6 and 7 are reserved and name none. -/
def responseCodeOfNumber (n : BitVec 3) : Option ResponseCode :=
  if n = 0#3 then some .ok
  else if n = 1#3 then some .invalidChannelCount
  else if n = 2#3 then some .malformedFrame
  else if n = 3#3 then some .checksumMismatch
  else if n = 4#3 then some .undefinedLqi
  else if n = 5#3 then some .illegalOperation
  else none

/-- R221: the response code of an error kind. -/
def ErrorKind.code : ErrorKind → ResponseCode
  | .invalidChannelCount => .invalidChannelCount
  | .malformedFrame => .malformedFrame
  | .checksumMismatch => .checksumMismatch
  | .illegalOperation => .illegalOperation

end Sys2Proof.Machine
end

