-- ==== Sys2Proof/Machine/Arith.lean ====
section
/-! DEFINITION. The arithmetic primitives of 00_scope.md R7.  `a mod m` for m > 0 is Lean's `%` on `Int`, whose result
is in `0..m-1` for every a. -/

namespace Sys2Proof.Machine

/-- R7: the greatest integer that is not above q. -/
def floorRat (q : Rat) : Int := q.floor

/-- R7: rounding toward zero. -/
def truncRat (q : Rat) : Int :=
  if 0 ≤ q then floorRat q else -floorRat (-q)

/-- R7 -/
def be16 (h l : Byte) : Nat := h.toNat * 256 + l.toNat

/-- R7 -/
def be32 (b0 b1 b2 b3 : Byte) : Nat :=
  b0.toNat * 2 ^ 24 + b1.toNat * 2 ^ 16 + b2.toNat * 2 ^ 8 + b3.toNat

/-- An integer reduced to a byte by `mod 256` (R63; used by R100, R101, R122, R150). -/
def byteOfInt (a : Int) : Byte := BitVec.ofNat 8 (a % 256).toNat

/-- A byte as the integer it is (R6). -/
def intOfByte (b : Byte) : Int := (b.toNat : Int)

end Sys2Proof.Machine
end

