-- ==== Sys2Proof/Machine/Operands.lean ====
section
/-! DEFINITION. The operand forms of R63 and the checks the operations make on them: the channel-list boundary and the
digital admission rule of 41_envelope.md R123, R124, and the address operand of R122 and R150. -/

namespace Sys2Proof.Machine

/-- The four channels in order. -/
def quadList {α : Type} (q : Quad α) : List α := [q.ch0, q.ch1, q.ch2, q.ch3]

/-- The same function of each channel: lanes are independent (42_packer.md). -/
def quadMap {α β : Type} (f : α → β) (q : Quad α) : Quad β := ⟨f q.ch0, f q.ch1, f q.ch2, f q.ch3⟩

/-- A check that holds on all four channels. -/
def quadAll {α : Type} (p : α → Bool) (q : Quad α) : Bool := p q.ch0 && p q.ch1 && p q.ch2 && p q.ch3

/-- R123: `countOK(l) = (len(l) = 4)`. -/
def countOK (l : List Intent) : Bool := l.length == 4

/-- R123, R125, R126: `[l[0], l[1], l[2], l[3]]` where `countOK(l)`; `none` where the count is wrong. -/
def channels (l : List Intent) : Option (Quad Intent) :=
  match l with
  | [x0, x1, x2, x3] => some ⟨x0, x1, x2, x3⟩
  | _ => none

/-- R124: a digital intent CKC gives a meaning. -/
def admitDigital : Intent → Bool
  | .fin _ => true
  | .negInf => true
  | .posInf => false
  | .nan => false

/-- R125, R150: every digital intent is admitted. -/
def admitAll (d : Quad Intent) : Bool := quadAll admitDigital d

/-- R120: the default address. -/
def defaultAddress : Byte := 0x78#8

/-- R150: the address operand of ENC; "Default when unspecified: 0x78". -/
def addressOperand : Option Int → Byte
  | none => defaultAddress
  | some n => byteOfInt n

end Sys2Proof.Machine
end

