-- ==== Sys2Proof/Machine/Ops.lean ====
section
/-! DEFINITION. The named operations over CMD and CFG, the three ways an operation ends (00_scope.md R8), and the reset
event (70_reset_and_hazards.md R240).

CKC has no memory (R40) and no traps (R226).  What stands in the place of taking an exception is `raise`: an error
response, with no state written.  There is no return from it (R227): the next request is performed like any other. -/

namespace Sys2Proof.Machine

/-- What every meaning answers. -/
abbrev Result := Host.Outcome State Fault Refusal

/-- R27: `CMD.version`, hardwired. -/
def readVersion (_ : State) : Byte := 0x01#8

/-- R27: `CMD.opcode`, hardwired. -/
def readOpcode (_ : State) : Byte := 0x80#8

/-- R28, R29, R131: CFG as a byte: bit 0 is CHKEN, bits 7:1 read as 0. -/
def readCfg (s : State) : Byte := if s.cfg.chken then 0x01#8 else 0x00#8

/-- R24, R122: `CMD.addr <- a`. -/
def setAddr (a : Byte) (s : State) : State := { s with cmd := { s.cmd with addr := a } }

/-- R25, R125: `CMD.digital <- d`, all four at once. -/
def setDigital (d : Quad Intent) (s : State) : State := { s with cmd := { s.cmd with digital := d } }

/-- R26, R126: `CMD.analog <- a`, all four at once. -/
def setAnalog (a : Quad Intent) (s : State) : State := { s with cmd := { s.cmd with analog := a } }

/-- R29, R130: a write of the byte v to CFG: bit 0 goes to CHKEN, bits 7:1 are discarded. -/
def writeCfg (v : Byte) (s : State) : State := { s with cfg := { chken := v.getLsbD 0 } }

/-- R220: the response goes to the requester being served and changes no register. -/
def answer (code : ResponseCode) (payload : Payload) (s : State) : State :=
  { s with responses := s.responses ++ [⟨s.serving, code, payload⟩] }

/-- R8, R220: `respond(OK, payload)`. -/
def respond (payload : Payload) (s : State) : Result := .next (answer .ok payload s)

/-- R8, R223, R226: `raise E`: the error response of kind E with an empty payload, and no state written. -/
def raise (e : ErrorKind) (s : State) : Result := .next (answer e.code .empty s)

/-- R8, R31: the mark `REFUSED` is set and stays set. -/
def markRefused (s : State) : State := { s with refused := true }

/-- R8, R228: `refuse(reason)`: no response, no CMD or CFG field written, `REFUSED` set.  The reason is not kept
(notes/assumptions/7.md). -/
def refuse (_ : RefuseReason) (s : State) : Result := .next (markRefused s)

/-- R240: the reset event writes CMD, CFG and REFUSED, and nothing else.  The waiting requests stay (DEDUCED,
notes/assumptions/10.md). -/
def resetRegisters (s : State) : State :=
  { s with cmd := State.reset.cmd, cfg := State.reset.cfg, refused := State.reset.refused }

/-- R246: a run is counted from reset, so the record of what it shows starts again there: no response given before the
reset, by a refused run or by any other, is shown as the new run's (DEDUCED, notes/assumptions/10.md). -/
def beginRun (s : State) : State := { s with responses := [] }

end Sys2Proof.Machine
end

