-- ==== Sys2Proof/Machine/Checksum.lean ====
section
/-! DEFINITION. The checksum engine and the hex-byte encoder (40_checksum.md): CSUM and HEXB. -/

namespace Sys2Proof.Machine

/-- R100: `s <- (Σ b) mod 256`, then `(256 - s) mod 256`. -/
def checksum (b : List Int) : Byte :=
  let s := b.sum % 256
  byteOfInt (256 - s)

/-- R100 on a list of bytes, as every use within CKC has it. -/
def checksumBytes (b : List Byte) : Byte := checksum (b.map intOfByte)

/-- R9: the uppercase hex digit of n in 0..15. -/
def hexDigit (n : Nat) : Char :=
  if n < 10 then Char.ofNat (0x30 + n) else Char.ofNat (0x41 + (n - 10))

/-- R101: two uppercase hex digits of `v mod 256`, high digit first. -/
def toHexByte (v : Int) : Str :=
  let u := (v % 256).toNat
  [hexDigit (u / 16), hexDigit (u % 16)]

/-- R102: CSUM. -/
def execCsum (bytes : List Byte) (s : State) : Result :=
  respond (.byte (checksumBytes bytes)) s

/-- R103: HEXB. -/
def execHexb (v : Int) (s : State) : Result :=
  respond (.str (toHexByte v)) s

end Sys2Proof.Machine
end

