-- ==== Sys2Proof/Machine/Envelope.lean ====
section
/-! DEFINITION. The operations that write and read CMD and CFG (41_envelope.md): SETADR, SETD, SETA, RDCMD, WCFG, RDCFG. -/

namespace Sys2Proof.Machine

/-- R122: SETADR.  No address range is checked. -/
def execSetadr (a : Int) (s : State) : Result :=
  respond .empty (setAddr (byteOfInt a) s)

/-- R125, R224: SETD.  The count is checked before the elements. -/
def execSetd (l : List Intent) (s : State) : Result :=
  match channels l with
  | none => raise .invalidChannelCount s
  | some d =>
    if admitAll d then respond .empty (setDigital d s)
    else refuse .digitalIntentNotNumeric s

/-- R126: SETA.  No element value is refused. -/
def execSeta (l : List Intent) (s : State) : Result :=
  match channels l with
  | none => raise .invalidChannelCount s
  | some a => respond .empty (setAnalog a s)

/-- R127: RDCMD. -/
def execRdcmd (s : State) : Result :=
  respond (.command s.cmd.addr s.cmd.digital s.cmd.analog (readVersion s) (readOpcode s)) s

/-- R130: WCFG. -/
def execWcfg (v : Byte) (s : State) : Result :=
  respond .empty (writeCfg v s)

/-- R131: RDCFG. -/
def execRdcfg (s : State) : Result :=
  respond (.byte (readCfg s)) s

end Sys2Proof.Machine
end

