-- ==== Sys2Proof/Machine/Framer.lean ====
section
/-! DEFINITION. The ASCII-hex line framer (44_framer.md): rendering a line, and parsing one. -/

namespace Sys2Proof.Machine

/-- R9, R120: the start marker `':'`. -/
def startMarker : Char := Char.ofNat 0x3A

/-- R9 -/
def charCR : Char := Char.ofNat 0x0D

/-- R9 -/
def charLF : Char := Char.ofNat 0x0A

/-- R120: the end marker CR LF. -/
def endMarker : Str := [charCR, charLF]

/-- The hex digits of a frame's bytes in index order (R41). -/
def hexBody (b : List Byte) : Str := b.flatMap (fun x => toHexByte (intOfByte x))

/-- R200 -/
def renderLine (b : List Byte) : Str := startMarker :: (hexBody b ++ endMarker)

/-- R201: the value of a hex digit in either case; `none` is `Invalid`. -/
def hexVal (c : Char) : Option Nat :=
  let n := c.toNat
  if 0x30 ≤ n ∧ n ≤ 0x39 then some (n - 0x30)
  else if 0x41 ≤ n ∧ n ≤ 0x46 then some (n - 0x41 + 10)
  else if 0x61 ≤ n ∧ n ≤ 0x66 then some (n - 0x61 + 10)
  else none

/-- R201: `16*hexval(c1) + hexval(c2)`, where both are hex digits. -/
def parseHexByte (c1 c2 : Char) : Option Byte :=
  match hexVal c1, hexVal c2 with
  | some h, some l => some (BitVec.ofNat 8 (16 * h + l))
  | _, _ => none

/-- R202: one start marker is dropped, if the line begins with one. -/
def stripStart (line : Str) : Str :=
  match line with
  | c :: rest => if c = startMarker then rest else line
  | [] => line

/-- R202: one CR LF is dropped, if the line ends with one. -/
def stripEnd (s : Str) : Str :=
  if 2 ≤ s.length ∧ s[s.length - 2]? = some charCR ∧ s[s.length - 1]? = some charLF then
    s.take (s.length - 2)
  else s

/-- R202: both markers, each optionally, the start marker first. -/
def stripMarkers (line : Str) : Str := stripEnd (stripStart line)

/-- R203: the bytes of the digit pairs `s[2k], s[2k+1]`; `none` if a character is no hex digit or one is left over. -/
def parsePairs : Str → Option (List Byte)
  | [] => some []
  | [_] => none
  | c1 :: c2 :: rest =>
    match parseHexByte c1 c2, parsePairs rest with
    | some b, some bs => some (b :: bs)
    | _, _ => none

/-- R203: the 24 bytes of a line with exactly 48 hex digits; `none` is `Malformed`. -/
def parseLine (line : Str) : Option (List Byte) :=
  let s := stripMarkers line
  if s.length = 48 then parsePairs s else none

end Sys2Proof.Machine
end

