-- ==== Sys2Proof/Machine/Wire.lean ====
section
/-! DEFINITION. The two wire frames of 30_encoding.md R70 and R74, byte by byte, and the meaning their rows of
spec/opcode_table.json have on the request port.

`ChangeOutputFrame.bytes` and `statusNotifyOfBytes` are the only places where a field's byte index is said. -/

namespace Sys2Proof.Machine

/-- R70: the outbound change-output frame.  The opcode and version bytes are constants (R27, R78) and the checksum byte
is computed, so none of the three is a field. -/
structure ChangeOutputFrame where
  addressId     : Byte
  digitalLevels : Byte
  digitalMask   : Byte
  /-- bytes 5..12: high and low byte of each analog channel -/
  pwm           : Quad (Byte × Byte)
  deriving DecidableEq, Repr

/-- R74: the inbound status-notify frame, every byte of it. -/
structure StatusNotifyFrame where
  senderAddressId   : Byte
  /-- byte 1: "expected 0x81; not surfaced" -/
  opcode            : Byte
  packetId          : Byte
  /-- byte 3: "expected 0x01; not surfaced" -/
  protocolVersion   : Byte
  lqiRaw            : Byte
  /-- bytes 5..8, most significant first -/
  serial            : Quad Byte
  receiverAddressId : Byte
  timestampHi       : Byte
  timestampLo       : Byte
  relayCount        : Byte
  voltageHi         : Byte
  voltageLo         : Byte
  /-- byte 15: ignored -/
  unused            : Byte
  rawDigitalLevel   : Byte
  rawDigitalChanged : Byte
  /-- bytes 18..21 -/
  analogIn          : Quad Byte
  analogCorrection  : Byte
  checksum          : Byte
  deriving DecidableEq, Repr

/-- R70, R78: the outbound opcode byte. -/
def changeOutputOpcode : Byte := 0x80#8

/-- R120: the protocol version. -/
def protocolVersion : Byte := 0x01#8

/-- R70: bytes 0..12. -/
def ChangeOutputFrame.body (f : ChangeOutputFrame) : List Byte :=
  [f.addressId, changeOutputOpcode, protocolVersion, f.digitalLevels, f.digitalMask,
   f.pwm.ch0.1, f.pwm.ch0.2, f.pwm.ch1.1, f.pwm.ch1.2, f.pwm.ch2.1, f.pwm.ch2.2, f.pwm.ch3.1, f.pwm.ch3.2]

/-- R70, R144: the 14 bytes, `checksum(bytes 0..12)` last. -/
def ChangeOutputFrame.bytes (f : ChangeOutputFrame) : List Byte :=
  f.body ++ [checksumBytes f.body]

/-- R74: bytes 0..22, which the checksum byte covers. -/
def StatusNotifyFrame.body (f : StatusNotifyFrame) : List Byte :=
  [f.senderAddressId, f.opcode, f.packetId, f.protocolVersion, f.lqiRaw,
   f.serial.ch0, f.serial.ch1, f.serial.ch2, f.serial.ch3, f.receiverAddressId,
   f.timestampHi, f.timestampLo, f.relayCount, f.voltageHi, f.voltageLo, f.unused,
   f.rawDigitalLevel, f.rawDigitalChanged,
   f.analogIn.ch0, f.analogIn.ch1, f.analogIn.ch2, f.analogIn.ch3, f.analogCorrection]

/-- R74: the 24 bytes. -/
def StatusNotifyFrame.bytes (f : StatusNotifyFrame) : List Byte := f.body ++ [f.checksum]

/-- R74: the frame of 24 bytes; `none` for every other byte count. -/
def statusNotifyOfBytes (b : List Byte) : Option StatusNotifyFrame :=
  match b with
  | [b0, b1, b2, b3, b4, b5, b6, b7, b8, b9, b10, b11, b12, b13, b14, b15, b16, b17, b18, b19, b20, b21, b22, b23] =>
    some { senderAddressId := b0, opcode := b1, packetId := b2, protocolVersion := b3, lqiRaw := b4,
           serial := ⟨b5, b6, b7, b8⟩, receiverAddressId := b9, timestampHi := b10, timestampLo := b11,
           relayCount := b12, voltageHi := b13, voltageLo := b14, unused := b15,
           rawDigitalLevel := b16, rawDigitalChanged := b17, analogIn := ⟨b18, b19, b20, b21⟩,
           analogCorrection := b22, checksum := b23 }
  | _ => none

/-- The row FRAME_CHANGE_OUTPUT, "not a request": as a request header the byte 0x80 has `H[7:4] ≠ 0`, so it raises
IllegalOperation (R61, R222).  The frame itself is produced by ENC and ENCCMD (Machine/Packer.lean). -/
def execFrameChangeOutput (s : State) : Result := raise .illegalOperation s

/-- The row FRAME_STATUS_NOTIFY, "not a request": as a request header the byte 0x81 raises IllegalOperation (R61;
95_test_vectors.md §2.7).  The frame itself is consumed by DEC (Machine/Unpacker.lean). -/
def execFrameStatusNotify (s : State) : Result := raise .illegalOperation s

end Sys2Proof.Machine
end

