-- ==== Sys2Proof/Machine/Packer.lean ====
section
/-! DEFINITION. The bit-packer and the outbound encoder (42_packer.md): ENCCMD and ENC. -/

namespace Sys2Proof.Machine

/-- R140: one channel's `(mask, level)`.  `none` is the case "never reached". -/
def digitalLane : Intent → Option (Bool × Bool)
  | .negInf => some (false, false)
  | .fin q => if q < 0 then some (false, false) else some (true, truncRat q % 2 == 1)
  | .posInf => none
  | .nan => none

/-- R141: `b << i` -/
def laneBit (b : Bool) (i : Nat) : Byte := (BitVec.ofBool b).setWidth 8 <<< i

/-- R43, R141: a byte whose bit i is channel i's bit, and whose bits 7:4 are 0. -/
def laneBits (b0 b1 b2 b3 : Bool) : Byte :=
  laneBit b0 0 ||| laneBit b1 1 ||| laneBit b2 2 ||| laneBit b3 3

/-- R141: `(digitalLevels, digitalMask)`; `none` where a lane is "never reached". -/
def packDigital (d : Quad Intent) : Option (Byte × Byte) :=
  match digitalLane d.ch0, digitalLane d.ch1, digitalLane d.ch2, digitalLane d.ch3 with
  | some (m0, l0), some (m1, l1), some (m2, l2), some (m3, l3) =>
    some (laneBits l0 l1 l2 l3, laneBits m0 m1 m2 m3)
  | _, _, _, _ => none

/-- R142, R152: the pair `(s >> 8, s & 0xFF)`. -/
def pwmPair (s : Nat) : Byte × Byte := (BitVec.ofNat 8 (s >>> 8), BitVec.ofNat 8 (s &&& 0xFF))

/-- R142: `floor(1024 * q / 100)`, exact. -/
def pwmScale (q : Rat) : Nat := (floorRat (1024 * q / 100)).toNat

/-- R142: the pair "channel not controlled". -/
def pwmSentinel : Byte × Byte := (0xFF#8, 0xFF#8)

/-- R142: one PWM channel's `(hi, lo)`. -/
def packAnalog : Intent → Byte × Byte
  | .fin q => if 0 ≤ q ∧ q ≤ 100 then pwmPair (pwmScale q) else pwmSentinel
  | .posInf => pwmSentinel
  | .negInf => pwmSentinel
  | .nan => pwmSentinel

/-- R144: the frame of an address and the two intent lists. -/
def packFrame (addr : Byte) (d a : Quad Intent) : Option ChangeOutputFrame :=
  match packDigital d with
  | none => none
  | some (levels, mask) =>
    some { addressId := addr, digitalLevels := levels, digitalMask := mask, pwm := quadMap packAnalog a }

/-- R144: `assemble(addr, d, a)`. -/
def assemble (addr : Byte) (d a : Quad Intent) : Option (List Byte) :=
  (packFrame addr d a).map ChangeOutputFrame.bytes

/-- R148: `encodeFrame(addr, d, a)`. -/
def encodeFrame (addr : Byte) (d a : Quad Intent) : Option Str :=
  (assemble addr d a).map renderLine

/-- The response of ENCCMD and ENC: the line.  Where a digital lane is "never reached" (R140) there is no line, and the
step stops with a fault of its own name; no request reaches it (R25, R124). -/
def respondFrame (addr : Byte) (d a : Quad Intent) (s : State) : Result :=
  match encodeFrame addr d a with
  | some line => respond (.str line) s
  | none => .fault .digitalLaneNeverReached

/-- R149: ENCCMD. -/
def execEnccmd (s : State) : Result :=
  respondFrame s.cmd.addr s.cmd.digital s.cmd.analog s

/-- R150, R224: ENC.  The digital count, then the analog count, then the digital elements; CMD is neither read nor
written. -/
def execEnc (d a : List Intent) (addr : Option Int) (s : State) : Result :=
  match channels d with
  | none => raise .invalidChannelCount s
  | some dq =>
    match channels a with
    | none => raise .invalidChannelCount s
    | some aq =>
      if admitAll dq then respondFrame (addressOperand addr) dq aq s
      else refuse .digitalIntentNotNumeric s

end Sys2Proof.Machine
end

