-- ==== Sys2Proof/Machine/Unpacker.lean ====
section
/-! DEFINITION. The bit-unpacker, the field scaling, the LQI calibration and the status decoder (43_unpacker.md): DEC. -/

namespace Sys2Proof.Machine

/-- R174, R175: `lqiCal(r)` under the parameter of R3. -/
def lqiCalibrate (cal : Config.LqiCal) (r : Byte) : Lqi :=
  let raw : Rat := (r.toNat : Rat)
  match cal with
  | .asWritten =>
    let den := (7 * raw - 1970) / 20
    if den = 0 then .unknown else .known (raw / den)
  | .linearDbm => .known ((7 * raw - 1970) / 20)

/-- R177: channel i of the digital inputs, from the level byte and the changed byte. -/
def unpackDigitalLane (level changed : Byte) (i : Nat) : Int :=
  if changed.getLsbD i then (if level.getLsbD i then 1 else 0) else -1

/-- R177 -/
def unpackDigital (level changed : Byte) : Quad Int :=
  ⟨unpackDigitalLane level changed 0, unpackDigitalLane level changed 1,
   unpackDigitalLane level changed 2, unpackDigitalLane level changed 3⟩

/-- R43, R178: channel i's correction, `b[22][2i+1 : 2i]`. -/
def correctionBits (correction : Byte) (i : Nat) : Nat := (correction.extractLsb' (2 * i) 2).toNat

/-- R178: channel i of the analog inputs, from its raw byte and the correction byte. -/
def unpackAnalogLane (raw correction : Byte) (i : Nat) : Int :=
  if raw = 0xFF#8 then -1 else ((((raw.toNat * 4) + correctionBits correction i) * 4 : Nat) : Int)

/-- R178 -/
def unpackAnalog (raw : Quad Byte) (correction : Byte) : Quad Int :=
  ⟨unpackAnalogLane raw.ch0 correction 0, unpackAnalogLane raw.ch1 correction 1,
   unpackAnalogLane raw.ch2 correction 2, unpackAnalogLane raw.ch3 correction 3⟩

/-- R176: `be16(b[10], b[11]) / 64`, exact. -/
def timestampSeconds (hi lo : Byte) : Rat := (be16 hi lo : Rat) / 64

/-- R170 to R178, R181: the status record of a frame.  Bytes 1, 3 and 15 are read by no field (R76). -/
def statusRecord (cal : Config.LqiCal) (f : StatusNotifyFrame) : StatusRecord where
  senderAddressId              := f.senderAddressId
  packetId                     := f.packetId
  lqiRaw                       := f.lqiRaw
  linkQualityIndicator         := lqiCalibrate cal f.lqiRaw
  senderSerialNumber           := be32 f.serial.ch0 f.serial.ch1 f.serial.ch2 f.serial.ch3
  receiverAddressId            := f.receiverAddressId
  timestampSeconds             := timestampSeconds f.timestampHi f.timestampLo
  relayCount                   := f.relayCount
  powerSupplyVoltageMillivolts := be16 f.voltageHi f.voltageLo
  digital                      := unpackDigital f.rawDigitalLevel f.rawDigitalChanged
  analog                       := unpackAnalog f.analogIn f.analogCorrection

/-- R180: `(CFG.CHKEN = 0) or (checksum(b[0..22]) = b[23])`. -/
def checkOK (chken : Bool) (f : StatusNotifyFrame) : Bool :=
  !chken || checksumBytes f.body == f.checksum

/-- R203: the frame of a line; `none` is `Malformed`. -/
def parseStatusLine (line : Str) : Option StatusNotifyFrame :=
  (parseLine line).bind statusNotifyOfBytes

/-- R181: DEC.  MalformedFrame is checked first, ChecksumMismatch second (R224). -/
def execDec (line : Str) (s : State) : Result :=
  match parseStatusLine line with
  | none => raise .malformedFrame s
  | some f =>
    if checkOK s.cfg.chken f then respond (.status (statusRecord s.lqiCal f)) s
    else raise .checksumMismatch s

end Sys2Proof.Machine
end

