-- ==== Sys2Proof/Machine/Dispatch.lean ====
section
/-! DEFINITION. The dispatch from an instruction to its meaning, one arm per row of spec/opcode_table.json (R62). -/

namespace Sys2Proof.Machine

open Sys2Proof

def exec (i : Instr) (s : State) : Host.Outcome State Fault Refusal :=
  match i with
  | .csum bytes => Sys2Proof.Machine.execCsum bytes s
  | .hexb v => Sys2Proof.Machine.execHexb v s
  | .setd l => Sys2Proof.Machine.execSetd l s
  | .seta l => Sys2Proof.Machine.execSeta l s
  | .setadr a => Sys2Proof.Machine.execSetadr a s
  | .rdcmd => Sys2Proof.Machine.execRdcmd s
  | .enccmd => Sys2Proof.Machine.execEnccmd s
  | .enc d a addr => Sys2Proof.Machine.execEnc d a addr s
  | .dec line => Sys2Proof.Machine.execDec line s
  | .wcfg v => Sys2Proof.Machine.execWcfg v s
  | .rdcfg => Sys2Proof.Machine.execRdcfg s
  | .frameChangeOutput => Sys2Proof.Machine.execFrameChangeOutput s
  | .frameStatusNotify => Sys2Proof.Machine.execFrameStatusNotify s

end Sys2Proof.Machine
end

