-- ==== Sys2Proof/Machine/Port.lean ====
section
/-! DEFINITION. The request port: which lanes have an input waiting, and accepting one (20_memory.md R46, R47).

Several requesters share the port and the order in which it accepts simultaneous requests is not fixed (R46).  Each
requester is a lane of `State.lanes`, in its own order.  Every lane with an input waiting may be the next one accepted:
`acceptFrom k` is the acceptance of lane k, and statements quantify over k.  `pickLane` is the one choice the
deterministic `step` makes, by a free value. -/

namespace Sys2Proof.Machine

/-- The numbers of the lanes that have an input waiting, counting from k. -/
def readyFrom (k : Nat) : List (List PortInput) → List Nat
  | [] => []
  | [] :: rest => readyFrom (k + 1) rest
  | (_ :: _) :: rest => k :: readyFrom (k + 1) rest

/-- R46: the lanes whose input may be accepted next. -/
def readyLanes (s : State) : List Nat := readyFrom 0 s.lanes

/-- The first input of lane k, and the lanes without it. -/
def takeInput : List (List PortInput) → Nat → Option (PortInput × List (List PortInput))
  | [], _ => none
  | [] :: _, 0 => none
  | (x :: xs) :: rest, 0 => some (x, xs :: rest)
  | lane :: rest, k + 1 =>
    match takeInput rest k with
    | none => none
    | some (x, rest') => some (x, lane :: rest')

/-- R47: the input of lane k is accepted: it leaves the lane, and the response to come goes to lane k. -/
def acceptFrom (k : Nat) (s : State) : Option (PortInput × State) :=
  match takeInput s.lanes k with
  | none => none
  | some (x, lanes') => some (x, { s with lanes := lanes', accepts := s.accepts + 1, serving := k })

/-- R46: the lane the deterministic step accepts from.  With one lane ready there is no choice; with several, the free
value of this acceptance decides. -/
def pickLane (s : State) : Option Nat :=
  match readyLanes s with
  | [] => none
  | [k] => some k
  | k :: k' :: ks => (k :: k' :: ks)[Config.acceptChoice s.accepts % (k :: k' :: ks).length]?

end Sys2Proof.Machine
end

