-- ==== Sys2Proof/Machine/Perform.lean ====
section
/-! DEFINITION. Performing one accepted input: a request is decoded and executed as one atomic step (20_memory.md R45,
R47), and the reset input takes effect between two operations (70_reset_and_hazards.md R241). -/

namespace Sys2Proof.Machine

/-- R61, R62, R222: a request is decoded; an illegal header raises IllegalOperation before any operand is read.  A record
outside the types of R62 is one the port does not carry (R63). -/
def performRequest (r : Request) (s : State) : Result :=
  match decode r with
  | .ok i => exec i s
  | .error .illegalOperation => raise .illegalOperation s
  | .error .operandRecord => .fault .operandRecordMistyped

/-- One accepted input.  The reset event writes the registers (R240) and ends the run (R246). -/
def performInput (x : PortInput) (s : State) : Result :=
  match x with
  | .request r => performRequest r s
  | .reset => .next (beginRun (resetRegisters s))

/-- R46, R47: the step that accepts from lane k and performs what it accepted.  With nothing waiting in lane k, nothing
happens. -/
def stepLane (k : Nat) (s : State) : Result :=
  match acceptFrom k s with
  | none => .next s
  | some (x, s') => performInput x s'

/-- One step: accept from the lane the port picks; with no input waiting CKC stays as it is
(notes/assumptions/6.md). -/
def stepPort (s : State) : Result :=
  match pickLane s with
  | none => .next s
  | some k => stepLane k s

/-- One request alone on the port, presented by requester 0. -/
def present (r : Request) (s : State) : State := { s with lanes := [[.request r]] }

end Sys2Proof.Machine
end

