-- ==== Sys2Proof/Machine/Step.lean ====
section
/-! DEFINITION. The step of the machine, and placing a word of spec/opcode_table.json where the step takes its next
request from. -/

namespace Sys2Proof.Machine

/-- One operation is one step (R22, R47). -/
def step (s : State) : Host.Outcome State Fault Refusal := stepPort s

/-- CKC fetches nothing (R22, R49): a program is the sequence of requests its requesters present on the port
(notes/assumptions/6.md).  The table's word is a request header of 8 bits; this puts that request, with its zero operand
record, alone on the port, so that the very next step accepts and performs it.  A word of another width is no request and
nothing is put there. -/
def State.withFetchWord (s : State) (nbits w : Nat) : State :=
  if nbits = 8 ∧ w < 256 then present (tableRequest w) s else s

end Sys2Proof.Machine
end

