-- ==== Sys2Proof/Machine/Assembly.lean ====
section
/-! DEFINITION. The written form of a program (30_encoding.md R65): one request per line, `MNEMONIC operand, operand`,
and the pseudo-instructions CHKON, CHKOFF and CLRCMD.  The written form carries no semantics (92_eei_decisions.md D22).

A line is cut into tokens, then the operands are read, then they are given the types of R62.  What R65 leaves open
about white space and numbers is in notes/assumptions/8.md. -/

namespace Sys2Proof.Machine.Asm

/-- A piece of a line. -/
inductive Token where
  | word (w : Str)
  | text (s : Str)
  | openBracket
  | closeBracket
  | comma
  deriving DecidableEq, Repr

/-- Where the scan of a line stands: between or in words, in quotes, or just after a backslash in quotes. -/
inductive ScanMode where
  | plain
  | quoted
  | escaped
  deriving DecidableEq, Repr

/-- The word collected so far, if any; its characters were collected last first. -/
def flushWord (w : Str) : List Token := if w.isEmpty then [] else [.word w.reverse]

def isBlank (c : Char) : Bool := c.toNat == 0x20 || c.toNat == 0x09

/-- R65: the tokens of a line.  In quotes, `\r` and `\n` stand for CR and LF. -/
def scan : ScanMode → Str → Str → Option (List Token)
  | .plain, w, [] => some (flushWord w)
  | .quoted, _, [] => none
  | .escaped, _, [] => none
  | .plain, w, c :: rest =>
    if isBlank c then (scan .plain [] rest).map (flushWord w ++ ·)
    else if c.toNat = 0x5B then (scan .plain [] rest).map ((flushWord w ++ [.openBracket]) ++ ·)
    else if c.toNat = 0x5D then (scan .plain [] rest).map ((flushWord w ++ [.closeBracket]) ++ ·)
    else if c.toNat = 0x2C then (scan .plain [] rest).map ((flushWord w ++ [.comma]) ++ ·)
    else if c.toNat = 0x22 then (scan .quoted [] rest).map (flushWord w ++ ·)
    else scan .plain (c :: w) rest
  | .quoted, w, c :: rest =>
    if c.toNat = 0x22 then (scan .plain [] rest).map (.text w.reverse :: ·)
    else if c.toNat = 0x5C then scan .escaped w rest
    else scan .quoted (c :: w) rest
  | .escaped, w, c :: rest =>
    if c.toNat = 0x72 then scan .quoted (charCR :: w) rest
    else if c.toNat = 0x6E then scan .quoted (charLF :: w) rest
    else none

/-- The number a list of digits below the base stands for, most significant first; the list is not empty. -/
def digitsNat (base : Nat) (s : Str) : Option Nat :=
  if s.isEmpty then none
  else s.foldl (fun acc c =>
    match acc, hexVal c with
    | some n, some d => if d < base then some (n * base + d) else none
    | _, _ => none) (some 0)

/-- R65: a byte or integer, in decimal (`-1`, `4095`) or in hex with `0x`. -/
def wordInt (w : Str) : Option Int :=
  match w with
  | c0 :: c1 :: rest =>
    if c0.toNat = 0x30 ∧ c1.toNat = 0x78 then (digitsNat 16 rest).map (fun n => (n : Int))
    else if c0.toNat = 0x2D then (digitsNat 10 (c1 :: rest)).map (fun n => -(n : Int))
    else (digitsNat 10 w).map (fun n => (n : Int))
  | _ => (digitsNat 10 w).map (fun n => (n : Int))

/-- An unsigned decimal number, which may have a fraction. -/
def wordFraction (w : Str) : Option Rat :=
  let whole := w.takeWhile (fun c => c.toNat != 0x2E)
  match w.drop whole.length with
  | [] => (digitsNat 10 whole).map (fun n => (n : Rat))
  | _ :: fraction =>
    match digitsNat 10 whole, digitsNat 10 fraction with
    | some n, some f => some (mkRat ((n * 10 ^ fraction.length + f : Nat) : Int) (10 ^ fraction.length))
    | _, _ => none

/-- R65 names a fraction and no exponent, but 41_envelope.md R125 writes an intent as `1e9`: a decimal number may end in a
lowercase `e` and the digits of a power of ten (DEDUCED, notes/assumptions/8.md). -/
def wordDecimal (w : Str) : Option Rat :=
  let mantissa := w.takeWhile (fun c => c.toNat != 0x65)
  match w.drop mantissa.length with
  | [] => wordFraction mantissa
  | _ :: exponent =>
    match wordFraction mantissa, digitsNat 10 exponent with
    | some q, some n => some (q * ((10 ^ n : Nat) : Rat))
    | _, _ => none

/-- R65: an intent: a decimal number, `+inf`, `-inf` or `nan`. -/
def wordIntent (w : Str) : Option Intent :=
  if w = "+inf".toList then some .posInf
  else if w = "-inf".toList then some .negInf
  else if w = "nan".toList then some .nan
  else
    match w with
    | [] => none
    | c :: rest =>
      if c.toNat = 0x2D then (wordDecimal rest).map (fun q => .fin (-q))
      else (wordDecimal w).map .fin

/-- A byte operand is 0..255 (R63). -/
def wordByte (w : Str) : Option Byte :=
  match wordInt w with
  | some v => if 0 ≤ v ∧ v ≤ 255 then some (byteOfInt v) else none
  | none => none

/-- An operand as written, before its operation gives it a type. -/
inductive Written where
  | word (w : Str)
  | text (s : Str)
  | list (ws : List Str)
  deriving DecidableEq, Repr

/-- What may come next while operands are read.  `listFirst`, `listNext` and `listRest` stand inside brackets, the last
two after a comma and after an element. -/
inductive ReadMode where
  | first
  | operand
  | separator
  | listFirst
  | listNext
  | listRest
  deriving DecidableEq, Repr

/-- R65: the operands between commas; `ws` are the elements of the open bracket, last first. -/
def readOperands : ReadMode → List Str → List Token → Option (List Written)
  | .first, _, [] => some []
  | .separator, _, [] => some []
  | .separator, _, .comma :: rest => readOperands .operand [] rest
  | .first, _, .word w :: rest => (readOperands .separator [] rest).map (.word w :: ·)
  | .first, _, .text s :: rest => (readOperands .separator [] rest).map (.text s :: ·)
  | .first, _, .openBracket :: rest => readOperands .listFirst [] rest
  | .operand, _, .word w :: rest => (readOperands .separator [] rest).map (.word w :: ·)
  | .operand, _, .text s :: rest => (readOperands .separator [] rest).map (.text s :: ·)
  | .operand, _, .openBracket :: rest => readOperands .listFirst [] rest
  | .listFirst, _, .closeBracket :: rest => (readOperands .separator [] rest).map (.list [] :: ·)
  | .listFirst, ws, .word w :: rest => readOperands .listRest (w :: ws) rest
  | .listNext, ws, .word w :: rest => readOperands .listRest (w :: ws) rest
  | .listRest, ws, .comma :: rest => readOperands .listNext ws rest
  | .listRest, ws, .closeBracket :: rest => (readOperands .separator [] rest).map (.list ws.reverse :: ·)
  | _, _, _ => none

/-- R62: the written operands of a mnemonic given their types.  An absent `Option Int` is left out. -/
def typedInstr (mnemonic : Str) (operands : List Written) : Option Instr :=
  if mnemonic = "CSUM".toList then
    match operands with
    | [.list ws] => (ws.mapM wordByte).map .csum
    | _ => none
  else if mnemonic = "HEXB".toList then
    match operands with
    | [.word w] => (wordInt w).map .hexb
    | _ => none
  else if mnemonic = "SETD".toList then
    match operands with
    | [.list ws] => (ws.mapM wordIntent).map .setd
    | _ => none
  else if mnemonic = "SETA".toList then
    match operands with
    | [.list ws] => (ws.mapM wordIntent).map .seta
    | _ => none
  else if mnemonic = "SETADR".toList then
    match operands with
    | [.word w] => (wordInt w).map .setadr
    | _ => none
  else if mnemonic = "RDCMD".toList then
    match operands with
    | [] => some .rdcmd
    | _ => none
  else if mnemonic = "ENCCMD".toList then
    match operands with
    | [] => some .enccmd
    | _ => none
  else if mnemonic = "ENC".toList then
    match operands with
    | [.list d, .list a] =>
      match d.mapM wordIntent, a.mapM wordIntent with
      | some d', some a' => some (.enc d' a' none)
      | _, _ => none
    | [.list d, .list a, .word w] =>
      match d.mapM wordIntent, a.mapM wordIntent, wordInt w with
      | some d', some a', some n => some (.enc d' a' (some n))
      | _, _, _ => none
    | _ => none
  else if mnemonic = "DEC".toList then
    match operands with
    | [.text s] => some (.dec s)
    | _ => none
  else if mnemonic = "WCFG".toList then
    match operands with
    | [.word w] => (wordByte w).map .wcfg
    | _ => none
  else if mnemonic = "RDCFG".toList then
    match operands with
    | [] => some .rdcfg
    | _ => none
  else none

/-- The four intents `-1`, "channel not controlled". -/
def notControlled : List Intent := List.replicate 4 (.fin (-1))

/-- R65: `CHKON` -/
def chkon : List Instr := [.wcfg 0x01#8]

/-- R65: `CHKOFF` -/
def chkoff : List Instr := [.wcfg 0x00#8]

/-- R65: `CLRCMD` -/
def clrcmd : List Instr := [.setadr 0x78, .setd notControlled, .seta notControlled]

/-- R65: the requests of one line; a pseudo-instruction takes no operand and may stand for several. -/
def assembleLine (line : Str) : Option (List Instr) :=
  match scan .plain [] line with
  | some (.word m :: rest) =>
    match readOperands .first [] rest with
    | none => none
    | some operands =>
      if m = "CHKON".toList then (if operands = [] then some chkon else none)
      else if m = "CHKOFF".toList then (if operands = [] then some chkoff else none)
      else if m = "CLRCMD".toList then (if operands = [] then some clrcmd else none)
      else (typedInstr m operands).map (fun i => [i])
  | _ => none

/-- R65: a program is written one request per line; the requests in order, encoded for the port. -/
def assembleProgram (lines : List Str) : Option (List Request) :=
  (lines.mapM assembleLine).map (fun is => is.flatten.map encode)

end Sys2Proof.Machine.Asm
end

