-- ==== Sys2Proof/Machine/Transport.lean ====
section
/-! DEFINITION. The transport's two interactions with CKC (20_memory.md R50).  Everything else the transport does is out
of scope (00_scope.md §2). -/

namespace Sys2Proof.Machine

/-- R50, receive: the transport issues DEC with one line.  It may leave the CR LF on the line or strip it. -/
def deliver (line : Str) (leaveEnd : Bool) : Request :=
  encode (.dec (if leaveEnd then line else stripEnd line))

/-- R50, transmit: the line a response hands to the transport, which sends it verbatim.  The lines are those ENC and
ENCCMD return; HEXB's two characters are no line (notes/assumptions/13.md). -/
def transmitLine (r : Response) : Option Str :=
  match r.code, r.payload with
  | .ok, .str (c :: rest) => if c = startMarker then some (c :: rest) else none
  | _, _ => none

end Sys2Proof.Machine
end

