-- ==== Sys2Proof/Safety.lean ====
section
/-! DEFINITION. What counts as a safe run: the invariant the steps keep, the accept relation over every interleaving of
whole operations (20_memory.md R46), and what a run shows (70_reset_and_hazards.md R246). -/

namespace Sys2Proof.Machine

/-- R220, R221, R223: code 4 is never sent, and an error response carries nothing. -/
def Response.shaped (r : Response) : Bool :=
  r.code != .undefinedLqi && (r.code == .ok || r.payload == .empty)

/-- R63: the port carries no request outside the types of R62. -/
def PortInput.portTyped : PortInput → Bool
  | .request r => r.portTyped
  | .reset => true

/-- R63, for everything that waits on the port. -/
def State.portTyped (s : State) : Bool := s.lanes.all (fun lane => lane.all PortInput.portTyped)

/-- The invariant: every stored digital intent is admitted (R25), every response has the shape of R220 and R221, and the
port carries what R63 says it carries. -/
abbrev State.Inv (s : State) : Prop :=
  admitAll s.cmd.digital = true ∧ s.responses.all Response.shaped = true ∧ s.portTyped = true

/-- R46: from s the port may accept an input of some lane, and performing it gives t.  The relation leaves the lane
open. -/
def Accepts (s t : State) : Prop := ∃ k ∈ readyLanes s, stepLane k s = .next t

/-- R46, R246: any finite number of inputs, accepted in any order the port may choose.  Where the reset input is among
them, each reset ends one run of R246 and begins the next (notes/assumptions/10.md). -/
inductive Run : State → State → Prop where
  | none (s : State) : Run s s
  | more (s t u : State) : Run s t → Accepts t u → Run s u

/-- R246: what the run since the last reset, ending in s, shows: its responses in accept order and the final
`(CMD, CFG)`.  A run with `REFUSED = 1` has no defined outcome (R228): there is nothing to read. -/
def State.shown (s : State) : Option (List Response × Cmd × Cfg) :=
  if s.refused then none else some (s.responses, s.cmd, s.cfg)

/-- R31: the run since the last reset has a defined outcome so far: none of its requests was refused. -/
abbrev State.Safe (s : State) : Prop := s.refused = false

end Sys2Proof.Machine
end

