-- ==== Sys2Proof/Certificates/Slice0/Obligations.lean ====
section
/-! DEFINITION. The statements for the provers.  Each names the rule of spec/ it formalises; OBLIGATIONS.json lists them.

`Claims.answered` says what an operation's response adds to the state, `Claims.acceptedFrom` what accepting an input leaves,
`Claims.sumOf` adds up bytes, and the two digit
lists are those of 00_scope.md R9; the statements use them so that they do not lean on the model's own functions. -/

open Sys2Proof Sys2Proof.Machine

namespace Sys2Proof.Claims

/-- R9: the uppercase hex digits, digit n at place n. -/
def upperHex : Str := ['0', '1', '2', '3', '4', '5', '6', '7', '8', '9', 'A', 'B', 'C', 'D', 'E', 'F']

/-- R201: the same with lowercase letters. -/
def lowerHex : Str := ['0', '1', '2', '3', '4', '5', '6', '7', '8', '9', 'a', 'b', 'c', 'd', 'e', 'f']

/-- The sum of bytes as numbers. -/
def sumOf (b : List Byte) : Nat := (b.map BitVec.toNat).sum

/-- R220: s with one more response, to the requester being served, and nothing else changed. -/
def answered (s : State) (code : ResponseCode) (payload : Payload) : State :=
  { s with responses := s.responses ++ [⟨s.serving, code, payload⟩] }

/-- The code and payload of each response given between s and t. -/
def given (s t : State) : List (ResponseCode × Payload) :=
  (t.responses.drop s.responses.length).map (fun r => (r.code, r.payload))

/-- R124: an element CKC gives no digital meaning. -/
def notNumeric (l : List Intent) : Prop := Intent.posInf ∈ l ∨ Intent.nan ∈ l

/-- R62: the result payload of each operation; a wire-frame row has none. -/
def resultFits : Instr → Payload → Prop
  | .csum _, p => ∃ b, p = .byte b
  | .hexb _, p => ∃ c1 c2, p = .str [c1, c2]
  | .setd _, p => p = .empty
  | .seta _, p => p = .empty
  | .setadr _, p => p = .empty
  | .rdcmd, p => ∃ addr digital analog version opcode, p = .command addr digital analog version opcode
  | .enccmd, p => ∃ line : Str, p = .str line ∧ line.length = 31
  | .enc _ _ _, p => ∃ line : Str, p = .str line ∧ line.length = 31
  | .dec _, p => ∃ r, p = .status r
  | .wcfg _, p => p = .empty
  | .rdcfg, p => ∃ b, p = .byte b
  | .frameChangeOutput, _ => False
  | .frameStatusNotify, _ => False

/-- s after the first input of lane k is accepted, `rest` being what then waits there (notes/assumptions/2.md, 3.md). -/
def acceptedFrom (k : Nat) (rest : List PortInput) (s : State) : State :=
  { s with lanes := s.lanes.set k rest, accepts := s.accepts + 1, serving := k }

/-- No lane waits to assert the reset input. -/
def noReset (s : State) : Prop := ∀ lane ∈ s.lanes, PortInput.reset ∉ lane

end Sys2Proof.Claims

open Sys2Proof.Claims

/-! ### Checksum engine and hex encoder (40_checksum.md) -/

/-- R102: CSUM responds OK with the checksum of its bytes, the number that makes the sum 0 mod 256, and writes nothing. -/
def Obligations.CsumRespondsTheChecksum : Prop :=
  ∀ (bytes : List Byte) (s : State), decode ⟨0x01#8, [.bytes bytes]⟩ = .ok (.csum bytes) ∧ ∃ c : Byte,
    exec (.csum bytes) s = .next (answered s .ok (.byte c)) ∧
    c.toNat = (256 - sumOf bytes % 256) % 256

/-- R100: the checksum of any integers, its value for the empty list, and its defining property. -/
def Obligations.ChecksumMakesTheSumZero : Prop :=
  checksum [] = 0#8 ∧
  ∀ b : List Int,
    ((checksum b).toNat : Int) = (256 - b.sum % 256) % 256 ∧
    (((checksum b).toNat : Int) + b.sum) % 256 = 0

/-- R103, R101: HEXB responds OK with the two uppercase hex digits of `v mod 256`, high digit first, and writes nothing. -/
def Obligations.HexbRespondsTwoUppercaseDigits : Prop :=
  ∀ (v : Int) (s : State), decode ⟨0x02#8, [.int v]⟩ = .ok (.hexb v) ∧ ∃ (hi lo : Nat) (c1 c2 : Char),
    upperHex[hi]? = some c1 ∧ upperHex[lo]? = some c2 ∧
    ((16 * hi + lo : Nat) : Int) = v % 256 ∧
    exec (.hexb v) s = .next (answered s .ok (.str [c1, c2]))

/-- 40_checksum.md §3 (R104, marked derived there): re-parsing is idempotent. -/
def Obligations.HexByteReparsesToItself : Prop :=
  ∀ v : Int, ∃ (c1 c2 : Char) (u : Byte),
    toHexByte v = [c1, c2] ∧ parseHexByte c1 c2 = some u ∧
    (u.toNat : Int) = v % 256 ∧ toHexByte (u.toNat : Int) = [c1, c2]

/-! ### Envelope, command and configuration registers (41_envelope.md) -/

/-- R122: SETADR stores `a mod 256` in CMD.addr, responds OK, and changes nothing else; no address is rejected. -/
def Obligations.SetadrStoresAddressModulo256 : Prop :=
  ∀ (a : Int) (s : State), decode ⟨0x05#8, [.int a]⟩ = .ok (.setadr a) ∧ ∃ x : Byte,
    (x.toNat : Int) = a % 256 ∧
    exec (.setadr a) s = .next (answered { s with cmd := { s.cmd with addr := x } } .ok .empty)

/-- R125: SETD writes all four digital intents or none: a wrong count raises InvalidChannelCount, a `posInf` or `nan`
among four is refused with REFUSED set and no response, every other list of four is stored. -/
def Obligations.SetdWritesAllFourOrNone : Prop :=
  ∀ (l : List Intent) (s : State),
    decode ⟨0x03#8, [.intents l]⟩ = .ok (.setd l) ∧
    (l.length ≠ 4 → exec (.setd l) s = .next (answered s .invalidChannelCount .empty)) ∧
    (l.length = 4 → notNumeric l → exec (.setd l) s = .next { s with refused := true }) ∧
    (∀ x0 x1 x2 x3 : Intent, l = [x0, x1, x2, x3] → ¬ notNumeric l →
      exec (.setd l) s =
        .next (answered { s with cmd := { s.cmd with digital := ⟨x0, x1, x2, x3⟩ } } .ok .empty))

/-- R126: SETA writes all four analog intents, whatever they are, or raises InvalidChannelCount and writes none. -/
def Obligations.SetaWritesAllFourOrNone : Prop :=
  ∀ (l : List Intent) (s : State),
    decode ⟨0x04#8, [.intents l]⟩ = .ok (.seta l) ∧
    (l.length ≠ 4 → exec (.seta l) s = .next (answered s .invalidChannelCount .empty)) ∧
    (∀ x0 x1 x2 x3 : Intent, l = [x0, x1, x2, x3] →
      exec (.seta l) s =
        .next (answered { s with cmd := { s.cmd with analog := ⟨x0, x1, x2, x3⟩ } } .ok .empty))

/-- R127, R27: RDCMD responds with the three fields of CMD and the hardwired version 0x01 and opcode 0x80, in every
state, and writes nothing. -/
def Obligations.RdcmdReadsTheCommandRegister : Prop :=
  ∀ s : State,
    decode ⟨0x06#8, []⟩ = .ok .rdcmd ∧
    exec .rdcmd s = .next (answered s .ok (.command s.cmd.addr s.cmd.digital s.cmd.analog 0x01#8 0x80#8))

/-- R130: WCFG writes bit 0 of its operand to CHKEN, discards the others, responds OK, and changes nothing else. -/
def Obligations.WcfgWritesBitZeroToChken : Prop :=
  ∀ (v : Byte) (s : State),
    decode ⟨0x0A#8, [.byte v]⟩ = .ok (.wcfg v) ∧
    exec (.wcfg v) s = .next (answered { s with cfg := { chken := decide (v.toNat % 2 = 1) } } .ok .empty)

/-- R131: RDCFG responds with CHKEN in bit 0 and zeros in bits 7:1, and writes nothing. -/
def Obligations.RdcfgReadsChkenInBitZero : Prop :=
  ∀ s : State, decode ⟨0x0B#8, []⟩ = .ok .rdcfg ∧ ∃ b : Byte,
    exec .rdcfg s = .next (answered s .ok (.byte b)) ∧
    b.getLsbD 0 = s.cfg.chken ∧ ∀ i, 1 ≤ i → b.getLsbD i = false

/-- R29: bits 7:1 of CFG read as 0 in every state, and whatever WCFG is given, RDCFG then reads its bit 0 alone. -/
def Obligations.CfgReservedBitsStayZero : Prop :=
  (∀ (s : State) (b : Byte), exec .rdcfg s = .next (answered s .ok (.byte b)) → ∀ i, 1 ≤ i → b.getLsbD i = false) ∧
  (∀ (v : Byte) (s t : State), exec (.wcfg v) s = .next t →
    exec .rdcfg t = .next (answered t .ok (.byte (v &&& 0x01#8))))

/-- 30_encoding.md §2: the three requests of CLRCMD all respond OK and bring CMD to its reset value from every state.
The reset intents are the spec's own decision (92_eei_decisions.md D6). -/
def Obligations.ClrcmdRestoresTheResetCommand : Prop :=
  ∀ s : State, ∃ t u v : State,
    Asm.clrcmd = [.setadr 0x78, .setd (List.replicate 4 (.fin (-1))), .seta (List.replicate 4 (.fin (-1)))] ∧
    exec (.setadr 0x78) s = .next t ∧
    exec (.setd (List.replicate 4 (.fin (-1)))) t = .next u ∧
    exec (.seta (List.replicate 4 (.fin (-1)))) u = .next v ∧
    v.cmd = State.reset.cmd ∧ v.cfg = s.cfg ∧ v.refused = s.refused ∧
    given s v = [(.ok, .empty), (.ok, .empty), (.ok, .empty)]

/-- 70_reset_and_hazards.md §2: SETD immediately followed by ENCCMD encodes the new digital intents. -/
def Obligations.EnccmdSeesTheSetdBeforeIt : Prop :=
  ∀ (d : Quad Intent) (s : State), admitAll d = true → ∃ (t u : State) (line : Str),
    exec (.setd (quadList d)) s = .next t ∧ exec .enccmd t = .next u ∧
    encodeFrame s.cmd.addr d s.cmd.analog = some line ∧
    given s u = [(.ok, .empty), (.ok, .str line)]

/-! ### Packer and outbound encoder (42_packer.md) -/

/-- R140: a negative intent is excluded; a non-negative one is controlled, and its level is the parity of the integer
below it; `posInf` and `nan` have no lane ("never reached"). -/
def Obligations.DigitalLaneIsMaskAndParity : Prop :=
  digitalLane .posInf = none ∧ digitalLane .nan = none ∧ digitalLane .negInf = some (false, false) ∧
  (∀ q : Rat, q < 0 → digitalLane (.fin q) = some (false, false)) ∧
  (∀ (q : Rat) (n : Nat), (n : Rat) ≤ q → q < (n : Rat) + 1 →
    digitalLane (.fin q) = some (true, decide (n % 2 = 1)))

/-- R141: bit i of the mask and of the levels is lane i's, bits 7:4 of both are 0, and a level bit is 1 only where its
mask bit is. -/
def Obligations.PackDigitalPlacesEachLane : Prop :=
  ∀ d : Quad Intent, admitAll d = true → ∃ levels mask : Byte,
    packDigital d = some (levels, mask) ∧
    (∀ (i : Nat) (x : Intent), (quadList d)[i]? = some x →
      digitalLane x = some (mask.getLsbD i, levels.getLsbD i)) ∧
    (∀ i, 4 ≤ i → mask.getLsbD i = false ∧ levels.getLsbD i = false) ∧
    (∀ i, levels.getLsbD i = true → mask.getLsbD i = true)

/-- R142: an intent in 0..100 packs as the two bytes of `floor(1024 q / 100)`, which is in 0..1024; every other intent
packs as the sentinel. -/
def Obligations.PackAnalogScalesOrSaysNotControlled : Prop :=
  (∀ q : Rat, 0 ≤ q → q ≤ 100 → ∃ n : Nat,
    n ≤ 1024 ∧ (n : Rat) ≤ 1024 * q / 100 ∧ 1024 * q / 100 < (n : Rat) + 1 ∧
    (packAnalog (.fin q)).1.toNat = n / 256 ∧ (packAnalog (.fin q)).2.toNat = n % 256) ∧
  (∀ q : Rat, q < 0 ∨ 100 < q → packAnalog (.fin q) = (0xFF#8, 0xFF#8)) ∧
  packAnalog .posInf = (0xFF#8, 0xFF#8) ∧ packAnalog .negInf = (0xFF#8, 0xFF#8) ∧
  packAnalog .nan = (0xFF#8, 0xFF#8)

/-- 30_encoding.md §3 (R71, marked derived there): a controlled channel's high byte is at most 0x04, so its pair is never
the sentinel. -/
def Obligations.ControlledPairIsNeverTheSentinel : Prop :=
  ∀ q : Rat, 0 ≤ q → q ≤ 100 →
    (packAnalog (.fin q)).1.toNat ≤ 4 ∧ packAnalog (.fin q) ≠ (0xFF#8, 0xFF#8)

/-- R144, R70: the 14 bytes of the outbound frame, each at its index, and the checksum of the first 13 last. -/
def Obligations.AssembledFrameFollowsTheByteTable : Prop :=
  ∀ (addr : Byte) (d a : Quad Intent), admitAll d = true → ∃ levels mask check : Byte,
    packDigital d = some (levels, mask) ∧
    assemble addr d a = some
      [addr, 0x80#8, 0x01#8, levels, mask,
       (packAnalog a.ch0).1, (packAnalog a.ch0).2, (packAnalog a.ch1).1, (packAnalog a.ch1).2,
       (packAnalog a.ch2).1, (packAnalog a.ch2).2, (packAnalog a.ch3).1, (packAnalog a.ch3).2, check] ∧
    check.toNat = (256 - sumOf
      [addr, 0x80#8, 0x01#8, levels, mask,
       (packAnalog a.ch0).1, (packAnalog a.ch0).2, (packAnalog a.ch1).1, (packAnalog a.ch1).2,
       (packAnalog a.ch2).1, (packAnalog a.ch2).2, (packAnalog a.ch3).1, (packAnalog a.ch3).2] % 256) % 256

/-- 40_checksum.md §3 (R105, marked derived there): every outbound frame sums to 0 mod 256, and an inbound frame passes
the check exactly when its 24 bytes do. -/
def Obligations.FramesSumToZero : Prop :=
  (∀ (addr : Byte) (d a : Quad Intent) (b : List Byte), assemble addr d a = some b → sumOf b % 256 = 0) ∧
  (∀ f : StatusNotifyFrame, checkOK true f = true ↔ sumOf f.bytes % 256 = 0)

/-- R148, R121: an encoded frame is the start marker, 28 uppercase hex digits, CR and LF: 31 characters. -/
def Obligations.EncodedLineHasThirtyOneCharacters : Prop :=
  ∀ (addr : Byte) (d a : Quad Intent), admitAll d = true → ∃ (line x : Str) (b : List Byte),
    encodeFrame addr d a = some line ∧ assemble addr d a = some b ∧ line = renderLine b ∧
    line = ':' :: (x ++ ['\r', '\n']) ∧ x.length = 2 * b.length ∧ line.length = 31 ∧ ∀ c ∈ x, c ∈ upperHex

/-- R149: ENCCMD responds OK with the line of CMD and writes nothing, in every state whose CMD holds admitted intents
(R25; `StepKeepsTheInvariant` keeps it so). -/
def Obligations.EnccmdEncodesTheCommandRegister : Prop :=
  ∀ s : State, admitAll s.cmd.digital = true → decode ⟨0x07#8, []⟩ = .ok .enccmd ∧ ∃ line : Str,
    encodeFrame s.cmd.addr s.cmd.digital s.cmd.analog = some line ∧
    exec .enccmd s = .next (answered s .ok (.str line))

/-- R150: ENC checks the count of d, then of a, refuses a `posInf` or `nan` in d, and otherwise responds with the line of
its own operands, to address 0x78 when none is given and to `n mod 256` when n is; it writes no register. -/
def Obligations.EncEncodesItsOperands : Prop :=
  ∀ (d a : List Intent) (addr : Option Int) (s : State),
    decode ⟨0x08#8, [.intents d, .intents a, .optInt addr]⟩ = .ok (.enc d a addr) ∧
    (d.length ≠ 4 ∨ a.length ≠ 4 →
      exec (.enc d a addr) s = .next (answered s .invalidChannelCount .empty)) ∧
    (d.length = 4 → a.length = 4 → notNumeric d →
      exec (.enc d a addr) s = .next { s with refused := true }) ∧
    (∀ x0 x1 x2 x3 y0 y1 y2 y3 : Intent, d = [x0, x1, x2, x3] → a = [y0, y1, y2, y3] → ¬ notNumeric d →
      ∃ (ad : Byte) (line : Str),
        (addr = none → ad = 0x78#8) ∧ (∀ n : Int, addr = some n → (ad.toNat : Int) = n % 256) ∧
        encodeFrame ad ⟨x0, x1, x2, x3⟩ ⟨y0, y1, y2, y3⟩ = some line ∧
        exec (.enc d a addr) s = .next (answered s .ok (.str line)))

/-- 42_packer.md §4: ENC neither reads nor writes CMD or CFG: with any other registers it gives the same response and
leaves those registers as they are. -/
def Obligations.EncDoesNotReadTheRegisters : Prop :=
  ∀ (d a : List Intent) (addr : Option Int) (s t : State) (c : Cmd) (g : Cfg),
    exec (.enc d a addr) s = .next t →
    exec (.enc d a addr) { s with cmd := c, cfg := g } = .next { t with cmd := c, cfg := g }

/-- 42_packer.md §5 (R151, marked derived there): unpacking the levels and mask of four intents from -1, 0, 1 gives them
again. -/
def Obligations.DigitalPackAndUnpackAreInverse : Prop :=
  ∀ d : Quad Int, (∀ n ∈ quadList d, n = -1 ∨ n = 0 ∨ n = 1) → ∃ levels mask : Byte,
    packDigital (quadMap (fun n : Int => Intent.fin (n : Rat)) d) = some (levels, mask) ∧
    unpackDigital levels mask = d

/-- 42_packer.md §5 (R152, marked derived there): the PWM pair is inverse to the big-endian read on 0..1024. -/
def Obligations.PwmPairReadsBackBigEndian : Prop :=
  ∀ n : Nat, n ≤ 1024 → be16 (pwmPair n).1 (pwmPair n).2 = n

/-! ### Framer (44_framer.md) -/

/-- R200, with the digit order of R41: a rendered line is the start marker, the two uppercase digits of each byte in
index order, high digit first, and CR LF; it has `2 len(b) + 3` characters. -/
def Obligations.RenderedLineHoldsEachByteInOrder : Prop :=
  ∀ b : List Byte, ∃ x : Str,
    renderLine b = ':' :: (x ++ ['\r', '\n']) ∧ (renderLine b).length = 2 * b.length + 3 ∧
    (∀ c ∈ x, c ∈ upperHex) ∧
    ∀ (k : Nat) (v : Byte), b[k]? = some v →
      x[2 * k]? = upperHex[v.toNat / 16]? ∧ x[2 * k + 1]? = upperHex[v.toNat % 16]?

/-- R201: the characters with a hex value, in either case, and their values; every other character is Invalid.  A pair of
digits is a byte, high digit first. -/
def Obligations.HexDigitsOfBothCasesHaveTheirValue : Prop :=
  (∀ (c : Char) (n : Nat), hexVal c = some n ↔ (upperHex[n]? = some c ∨ lowerHex[n]? = some c)) ∧
  (∀ (c1 c2 : Char) (h l : Nat), hexVal c1 = some h → hexVal c2 = some l →
    ∃ v : Byte, parseHexByte c1 c2 = some v ∧ v.toNat = 16 * h + l)

/-- R202: a leading start marker and a trailing CR LF are each dropped once if they are there, in every one of the four
cases, and nothing else is. -/
def Obligations.StripMarkersDropsOneOfEachIfThere : Prop :=
  (∀ rest : Str, stripMarkers (':' :: (rest ++ ['\r', '\n'])) = rest) ∧
  (∀ rest : Str, ¬ (['\r', '\n'] <:+ rest) → stripMarkers (':' :: rest) = rest) ∧
  (∀ rest : Str, rest.head? ≠ some ':' → stripMarkers (rest ++ ['\r', '\n']) = rest) ∧
  (∀ rest : Str, rest.head? ≠ some ':' → ¬ (['\r', '\n'] <:+ rest) → stripMarkers rest = rest)

/-- R203: a line parses exactly when its body is 48 hex digits, and byte k is then that of digits 2k and 2k+1. -/
def Obligations.LineParsesExactlyWithFortyEightDigits : Prop :=
  ∀ line : Str,
    ((∃ b, parseLine line = some b) ↔
      (stripMarkers line).length = 48 ∧ ∀ c ∈ stripMarkers line, ∃ n, hexVal c = some n) ∧
    (∀ b, parseLine line = some b → b.length = 24 ∧
      ∀ (k : Nat) (v : Byte), b[k]? = some v → ∃ (c1 c2 : Char),
        (stripMarkers line)[2 * k]? = some c1 ∧ (stripMarkers line)[2 * k + 1]? = some c2 ∧
        parseHexByte c1 c2 = some v)

/-- 44_framer.md §3 (R204, marked derived there): parsing inverts rendering for every 24 bytes, with the CR LF left on or
stripped by the transport, so no bit of a frame is dropped on the wire. -/
def Obligations.ParsingInvertsRendering : Prop :=
  ∀ b : List Byte, b.length = 24 →
    parseLine (renderLine b) = some b ∧
    parseLine ((renderLine b).take ((renderLine b).length - 2)) = some b

/-! ### Unpacker and status decoder (43_unpacker.md) -/

/-- R181, R180, R171, R172, R173, R176: a line that does not parse raises MalformedFrame, whatever CHKEN is; one of 24
bytes raises ChecksumMismatch exactly when CHKEN is 1 and the bytes do not sum to 0 mod 256; every other gives a record
with each field as the byte table says.  No register is written. -/
def Obligations.DecDecodesOneStatusLine : Prop :=
  ∀ (line : Str) (s : State),
    decode ⟨0x09#8, [.str line]⟩ = .ok (.dec line) ∧
    (parseLine line = none → exec (.dec line) s = .next (answered s .malformedFrame .empty)) ∧
    (∀ b0 b1 b2 b3 b4 b5 b6 b7 b8 b9 b10 b11 b12 b13 b14 b15 b16 b17 b18 b19 b20 b21 b22 b23 : Byte,
      parseLine line = some
        [b0, b1, b2, b3, b4, b5, b6, b7, b8, b9, b10, b11, b12, b13, b14, b15, b16, b17, b18, b19, b20, b21, b22, b23] →
      (s.cfg.chken = true → sumOf
        [b0, b1, b2, b3, b4, b5, b6, b7, b8, b9, b10, b11, b12, b13, b14, b15, b16, b17, b18, b19, b20, b21, b22, b23]
          % 256 ≠ 0 →
        exec (.dec line) s = .next (answered s .checksumMismatch .empty)) ∧
      ((s.cfg.chken = false ∨ sumOf
        [b0, b1, b2, b3, b4, b5, b6, b7, b8, b9, b10, b11, b12, b13, b14, b15, b16, b17, b18, b19, b20, b21, b22, b23]
          % 256 = 0) → ∃ r : StatusRecord,
        exec (.dec line) s = .next (answered s .ok (.status r)) ∧
        r.senderAddressId = b0 ∧ r.packetId = b2 ∧ r.lqiRaw = b4 ∧ r.receiverAddressId = b9 ∧ r.relayCount = b12 ∧
        r.linkQualityIndicator = lqiCalibrate s.lqiCal b4 ∧
        r.senderSerialNumber = b5.toNat * 2 ^ 24 + b6.toNat * 2 ^ 16 + b7.toNat * 2 ^ 8 + b8.toNat ∧
        r.timestampSeconds = ((b10.toNat * 256 + b11.toNat : Nat) : Rat) / 64 ∧
        r.powerSupplyVoltageMillivolts = b13.toNat * 256 + b14.toNat ∧
        (∀ (i : Nat) (n : Int), (quadList r.digital)[i]? = some n →
          n = if b17.getLsbD i then (if b16.getLsbD i then 1 else 0) else -1) ∧
        (∀ (i : Nat) (n : Int) (raw : Byte), (quadList r.analog)[i]? = some n → [b18, b19, b20, b21][i]? = some raw →
          n = if raw = 0xFF#8 then -1
              else ((raw.toNat : Int) * 4 + (b22.toNat / 4 ^ i % 4 : Nat)) * 4)))

/-- 20_memory.md §5 and 44_framer.md §3: a status frame the transport receives as a line and hands over, with the CR LF or
without it, gives the response that `statusRecord` makes of that frame; the bytes it does not surface (R76) stay out of
the record, as does the checksum.  `deliver` is the model's form of the transport's receive (notes/assumptions/13.md). -/
def Obligations.ReceivedFrameIsDecodedWhole : Prop :=
  ∀ (f : StatusNotifyFrame) (leaveEnd : Bool) (s : State),
    (s.cfg.chken = false ∨ sumOf f.bytes % 256 = 0) →
    performRequest (deliver (renderLine f.bytes) leaveEnd) s =
      .next (answered s .ok (.status (statusRecord s.lqiCal f)))

/-- R174: both calibrations, for every raw byte.  No byte gives the `unknown` sentinel (R175). -/
def Obligations.LqiFollowsTheCalibrationFormula : Prop :=
  ∀ r : Byte,
    lqiCalibrate .asWritten r = .known ((r.toNat : Rat) / ((7 * (r.toNat : Rat) - 1970) / 20)) ∧
    lqiCalibrate .asWritten r = .known (20 * (r.toNat : Rat) / (7 * (r.toNat : Rat) - 1970)) ∧
    lqiCalibrate .linearDbm r = .known ((7 * (r.toNat : Rat) - 1970) / 20)

/-- R178: a raw byte 0xFF is the sentinel -1 whatever the correction; every other gives `16 raw + 4 corr`, a multiple of
4 in 0..4076, with channel i's correction in bits 2i+1:2i. -/
def Obligations.AnalogInputIsScaledOrNotReported : Prop :=
  ∀ (raw correction : Byte) (i : Nat), i < 4 →
    (raw = 0xFF#8 → unpackAnalogLane raw correction i = -1) ∧
    (raw ≠ 0xFF#8 → ∃ corr : Nat,
      corr = 2 * (correction.getLsbD (2 * i + 1)).toNat + (correction.getLsbD (2 * i)).toNat ∧
      unpackAnalogLane raw correction i = 16 * (raw.toNat : Int) + 4 * (corr : Int) ∧
      4 ∣ unpackAnalogLane raw correction i ∧
      0 ≤ unpackAnalogLane raw correction i ∧ unpackAnalogLane raw correction i ≤ 4076)

/-- R177: bits 7:4 of both bytes are ignored, and so is a level bit whose changed bit is 0. -/
def Obligations.DigitalInputReadsOnlyReportedLanes : Prop :=
  ∀ level changed level' changed' : Byte,
    (∀ i, i < 4 → changed.getLsbD i = changed'.getLsbD i) →
    (∀ i, i < 4 → changed.getLsbD i = true → level.getLsbD i = level'.getLsbD i) →
    unpackDigital level changed = unpackDigital level' changed' ∧
    (∀ (i : Nat) (n : Int), (quadList (unpackDigital level changed))[i]? = some n →
      n = if changed.getLsbD i then (if level.getLsbD i then 1 else 0) else -1)

/-- R76: two lines whose bytes differ only at 1, 3 and 15 give the same response, when CHKEN is clear or both pass the
checksum check: DEC checks none of the three. -/
def Obligations.DecDoesNotReadUnsurfacedBytes : Prop :=
  ∀ (line line' : Str) (b b' : List Byte) (s : State),
    parseLine line = some b → parseLine line' = some b' →
    (s.cfg.chken = false ∨ (sumOf b % 256 = 0 ∧ sumOf b' % 256 = 0)) →
    (∀ i, i ≠ 1 → i ≠ 3 → i ≠ 15 → b[i]? = b'[i]?) →
    exec (.dec line) s = exec (.dec line') s

/-- 20_memory.md §2: the multi-byte fields are big-endian and unsigned: the number is that of the bytes written one after
the other, most significant first. -/
def Obligations.MultiByteFieldsAreBigEndianUnsigned : Prop :=
  (∀ h l : Byte, be16 h l = (h ++ l).toNat) ∧
  (∀ b0 b1 b2 b3 : Byte, be32 b0 b1 b2 b3 = (b0 ++ b1 ++ b2 ++ b3).toNat)

/-! ### Requests (30_encoding.md §1) -/

/-- R61, R222: a header with `H[7:4] ≠ 0` or a reserved code raises IllegalOperation, whatever the operand record is, and
writes no state; under every other header, with the record of R62, the operation is performed. -/
def Obligations.EveryHeaderSelectsOrRaises : Prop :=
  ∀ (r : Request) (s : State),
    ((r.header.toNat / 16 ≠ 0 ∨ r.header.toNat % 16 = 0 ∨ 12 ≤ r.header.toNat % 16) →
      performRequest r s = .next (answered s .illegalOperation .empty)) ∧
    (r.header.toNat / 16 = 0 → 1 ≤ r.header.toNat % 16 → r.header.toNat % 16 ≤ 11 → r.portTyped = true →
      ∃ i : Instr, i.isOperation = true ∧ encode i = r ∧ performRequest r s = exec i s)

/-- 30_encoding.md §1: decoding inverts encoding for every instruction, and every well-formed request is the encoding of
the one well-formed instruction it decodes to: no operand is dropped and no two well-formed requests share a meaning.
The first clause covers the table's two wire-frame rows as well: that their bytes 0x80 and 0x81 decode to the rows' own
constructors, whose meaning is then the IllegalOperation of R61, is the model's choice (notes/assumptions/4.md). -/
def Obligations.DecodeAndEncodeAgree : Prop :=
  (∀ i : Instr, decode (encode i) = .ok i) ∧
  (∀ i : Instr, i.wellFormed = true → (encode i).wellFormed = true) ∧
  (∀ r : Request, r.wellFormed = true →
    ∃ i : Instr, i.wellFormed = true ∧ decode r = .ok i ∧ encode i = r)

/-- R62: the header bytes of the operation map, one request of each operation. -/
def Obligations.OperationMapWordsDecode : Prop :=
  decode ⟨0x01#8, [.bytes [0x78#8, 0x80#8]]⟩ = .ok (.csum [0x78#8, 0x80#8]) ∧
  decode ⟨0x02#8, [.int 11]⟩ = .ok (.hexb 11) ∧
  decode ⟨0x03#8, [.intents [.fin 1, .negInf]]⟩ = .ok (.setd [.fin 1, .negInf]) ∧
  decode ⟨0x04#8, [.intents [.nan]]⟩ = .ok (.seta [.nan]) ∧
  decode ⟨0x05#8, [.int (-1)]⟩ = .ok (.setadr (-1)) ∧
  decode ⟨0x06#8, []⟩ = .ok .rdcmd ∧
  decode ⟨0x07#8, []⟩ = .ok .enccmd ∧
  decode ⟨0x08#8, [.intents [.fin 1], .intents [.posInf], .optInt (some 0x64)]⟩ = .ok (.enc [.fin 1] [.posInf] (some 0x64)) ∧
  decode ⟨0x09#8, [.str [':']]⟩ = .ok (.dec [':']) ∧
  decode ⟨0x0A#8, [.byte 0xFE#8]⟩ = .ok (.wcfg 0xFE#8) ∧
  decode ⟨0x0B#8, []⟩ = .ok .rdcfg

/-- 30_encoding.md §1, and the model's reading of the table's two wire-frame rows (notes/assumptions/4.md): as requests
they raise IllegalOperation and change nothing. -/
def Obligations.WireFrameRowsAreNoRequests : Prop :=
  ∀ s : State,
    exec .frameChangeOutput s = .next (answered s .illegalOperation .empty) ∧
    exec .frameStatusNotify s = .next (answered s .illegalOperation .empty)

/-- 30_encoding.md §2: the written forms of the pseudo-instructions. -/
def Obligations.PseudoInstructionsStandForTheirRequests : Prop :=
  Asm.assembleLine ['C', 'H', 'K', 'O', 'N'] = some [.wcfg 0x01#8] ∧
  Asm.assembleLine ['C', 'H', 'K', 'O', 'F', 'F'] = some [.wcfg 0x00#8] ∧
  Asm.assembleLine ['C', 'L', 'R', 'C', 'M', 'D'] =
    some [.setadr 0x78, .setd [.fin (-1), .fin (-1), .fin (-1), .fin (-1)],
          .seta [.fin (-1), .fin (-1), .fin (-1), .fin (-1)]]

/-! ### Responses, errors and refusal (60_exceptions.md) -/

/-- R221: the numbers of the response codes; 6 and 7 name none. -/
def Obligations.ResponseCodesHaveTheirNumbers : Prop :=
  ResponseCode.number .ok = 0#3 ∧ ResponseCode.number .invalidChannelCount = 1#3 ∧
  ResponseCode.number .malformedFrame = 2#3 ∧ ResponseCode.number .checksumMismatch = 3#3 ∧
  ResponseCode.number .undefinedLqi = 4#3 ∧ ResponseCode.number .illegalOperation = 5#3 ∧
  (∀ c : ResponseCode, responseCodeOfNumber c.number = some c) ∧
  responseCodeOfNumber 6#3 = none ∧ responseCodeOfNumber 7#3 = none

/-- R220, R223: an operation that is not refused ends with exactly one response, to the requester it serves: OK with the
result of R62, or an error kind with nothing, and then no state is written.  Code 4 is never sent (R221). -/
def Obligations.EveryOperationAnswersOnceOrIsRefused : Prop :=
  ∀ (i : Instr) (s t : State), exec i s = .next t →
    t = { s with refused := true } ∨
    ∃ (code : ResponseCode) (payload : Payload),
      t.responses = s.responses ++ [⟨s.serving, code, payload⟩] ∧ t.refused = s.refused ∧
      code ≠ .undefinedLqi ∧ (code = .ok → resultFits i payload) ∧
      (code ≠ .ok → payload = .empty ∧ t = answered s code .empty)

/-- R228, with R31's "No operation clears it": the only refusal is a digital `posInf` or `nan` among four in SETD, or in
ENC with four analog intents; a refused request gets no response and writes no register. -/
def Obligations.RefusalIsOnlyForNonNumericDigitalIntents : Prop :=
  ∀ (i : Instr) (s t : State), exec i s = .next t →
    (s.refused = true → t.refused = true) ∧
    (s.refused = false → t.refused = true →
      t = { s with refused := true } ∧
      ((∃ l, i = .setd l ∧ l.length = 4 ∧ notNumeric l) ∨
       (∃ d a addr, i = .enc d a addr ∧ d.length = 4 ∧ a.length = 4 ∧ notNumeric d)))

/-- 70_reset_and_hazards.md §3 and 10_state.md §4: once a request has been refused, the mark stays set and nothing is
shown, whatever is accepted after it, until the reset input is asserted (notes/assumptions/7.md, 10.md). -/
def Obligations.RefusedRunsShowNothing : Prop :=
  ∀ s t : State, s.refused = true → noReset s → Run s t → t.refused = true ∧ t.shown = none

/-- 70_reset_and_hazards.md §3 and 60_exceptions.md §1, in the model's record of responses (notes/assumptions/2.md): where
no request was refused, the responses and the final (CMD, CFG) are shown; each accepted request adds one response at the
end, to its own requester; so a run without the reset input shows one response for each request accepted. -/
def Obligations.UnrefusedRunsShowOneResponsePerRequest : Prop :=
  (∀ s : State, s.refused = false → s.shown = some (s.responses, s.cmd, s.cfg)) ∧
  (∀ (s t : State) (k : Nat), noReset s → k ∈ readyLanes s → stepLane k s = .next t → t.refused = false →
    ∃ (code : ResponseCode) (payload : Payload),
      t.shown = some (s.responses ++ [⟨k, code, payload⟩], t.cmd, t.cfg)) ∧
  (∀ s t : State, noReset s → Run s t → t.refused = false →
    ∃ added : List Response,
      t.shown = some (s.responses ++ added, t.cmd, t.cfg) ∧ t.accepts = s.accepts + added.length ∧
      ∀ r ∈ added, r.requester < s.lanes.length)

/-! ### State and whole-machine rules (10_state.md, 20_memory.md) -/

/-- R20: every operation except SETADR, SETD, SETA and WCFG leaves (CMD, CFG) unchanged, each of those four writes its own
field alone, and none touches the parameter, the port or who is served.  What an operation answers and writes is a function
of its operands and (CMD, CFG), with the parameter LQI_CAL: earlier responses (R23), refusals and waiting requests make no
difference. -/
def Obligations.OperationsReadAndWriteOnlyTheRegisters : Prop :=
  (∀ (i : Instr) (s t : State), exec i s = .next t →
    (t.cmd.addr ≠ s.cmd.addr → ∃ a, i = .setadr a) ∧
    (t.cmd.digital ≠ s.cmd.digital → ∃ l, i = .setd l) ∧
    (t.cmd.analog ≠ s.cmd.analog → ∃ l, i = .seta l) ∧
    (t.cfg ≠ s.cfg → ∃ v, i = .wcfg v) ∧
    t.lqiCal = s.lqiCal ∧ t.lanes = s.lanes ∧ t.accepts = s.accepts ∧ t.serving = s.serving) ∧
  (∀ (i : Instr) (s s' t : State),
    s.cmd = s'.cmd → s.cfg = s'.cfg → s.lqiCal = s'.lqiCal → exec i s = .next t →
    ∃ t', exec i s' = .next t' ∧ t.cmd = t'.cmd ∧ t.cfg = t'.cfg ∧ given s t = given s' t')

/-- R45: issuing an operation twice in a row gives the same response and the same state as issuing it once. -/
def Obligations.OperationsAreIdempotent : Prop :=
  ∀ (i : Instr) (s t : State), exec i s = .next t →
    ∃ u, exec i t = .next u ∧ u.cmd = t.cmd ∧ u.cfg = t.cfg ∧ u.refused = t.refused ∧ given t u = given s t

/-- R245 ("every accepted operation completes"), for every row of the opcode table, in every state whose CMD holds
admitted intents (R25): exec answers a next state. -/
def Obligations.EveryInstructionCompletes : Prop :=
  ∀ (i : Instr) (s : State), admitAll s.cmd.digital = true → ∃ t, exec i s = .next t

/-- 20_memory.md §4, in the model's lanes (notes/assumptions/2.md, 3.md): accepting from lane k takes the first input of
that lane, keeps every other input in its place, serves requester k, and touches no register. -/
def Obligations.AcceptTakesTheFrontOfOneLane : Prop :=
  ∀ (k : Nat) (s s' : State) (x : PortInput),
    acceptFrom k s = some (x, s') ↔
    ∃ rest, s.lanes[k]? = some (x :: rest) ∧
      s' = { s with lanes := s.lanes.set k rest, accepts := s.accepts + 1, serving := k }

/-- 20_memory.md §4, in the model's lanes: the accept order is left open: the lanes that may be accepted are all those with
an input waiting, and the step takes one of them.  The lanes and the free choice among them are the model's form of the
open order (notes/assumptions/3.md); that a step with nothing waiting changes nothing is the model's choice
(notes/assumptions/6.md). -/
def Obligations.StepAcceptsSomeReadyLane : Prop :=
  ∀ s : State,
    (∀ k, k ∈ readyLanes s ↔ ∃ x rest, s.lanes[k]? = some (x :: rest)) ∧
    (readyLanes s = [] → step s = .next s) ∧
    (readyLanes s ≠ [] → ∃ k ∈ readyLanes s, step s = stepLane k s) ∧
    (∀ t, step s = .next t → (readyLanes s = [] ∧ t = s) ∨ Accepts s t)

/-- 20_memory.md §4: a step performs the input it accepted, request or reset, on the state after acceptance: the step of
any lane its first input, and the step of the machine that of the lane it picks.  A request with a legal header is executed as
the instruction it decodes to, and one with an illegal header is answered so.  That a lane's first input is the one accepted
is the model's choice (notes/assumptions/3.md), and so is the accepted state (notes/assumptions/2.md). -/
def Obligations.StepPerformsTheDecodedInstruction : Prop :=
  ∀ (s : State) (k : Nat) (x : PortInput) (rest : List PortInput),
    s.lanes[k]? = some (x :: rest) →
    stepLane k s = performInput x (acceptedFrom k rest s) ∧
    (pickLane s = some k → step s = performInput x (acceptedFrom k rest s)) ∧
    (∀ r : Request, x = .request r →
      performInput x (acceptedFrom k rest s) = performRequest r (acceptedFrom k rest s) ∧
      (∀ i : Instr, decode r = .ok i →
        performInput x (acceptedFrom k rest s) = exec i (acceptedFrom k rest s)) ∧
      (decode r = .error .illegalOperation →
        performInput x (acceptedFrom k rest s) =
          .next (answered (acceptedFrom k rest s) .illegalOperation .empty)))

/-- The model's own port convention (notes/assumptions/5.md): a table word placed on the port is the next request
performed. -/
def Obligations.PlacedTableWordIsPerformedNext : Prop :=
  ∀ (s : State) (w : Nat) (i : Instr), decodeTableWord 8 w = some i →
    step (s.withFetchWord 8 w) = exec i { s with lanes := [[]], accepts := s.accepts + 1, serving := 0 }

/-- 70_reset_and_hazards.md §2: with SETD then ENCCMD waiting in one lane and another SETD in a second, the port may
accept the second SETD between the two, and the first requester then gets the line of the other's intents. -/
def Obligations.AnotherSetdMayFallBetweenSetdAndEnccmd : Prop :=
  ∀ (s : State) (d e : Quad Intent), admitAll d = true → admitAll e = true → ∃ (t : State) (line : Str),
    Run { s with lanes := [[.request (encode (.setd (quadList d))), .request (encode .enccmd)],
                           [.request (encode (.setd (quadList e)))]] } t ∧
    encodeFrame s.cmd.addr e s.cmd.analog = some line ∧
    t.responses = s.responses ++ [⟨0, .ok, .empty⟩, ⟨1, .ok, .empty⟩, ⟨0, .ok, .str line⟩]

/-! ### Reset and the invariant (70_reset_and_hazards.md) -/

/-- R240: the values after reset, with the hardwired fields and the reserved bits as they read; the default of R3. -/
def Obligations.ResetStateHoldsTheResetTable : Prop :=
  State.reset.cmd.addr = 0x78#8 ∧
  (∀ x ∈ quadList State.reset.cmd.digital, x = .fin (-1)) ∧
  (∀ x ∈ quadList State.reset.cmd.analog, x = .fin (-1)) ∧
  readVersion State.reset = 0x01#8 ∧ readOpcode State.reset = 0x80#8 ∧
  State.reset.cfg.chken = true ∧ readCfg State.reset = 0x01#8 ∧ State.reset.refused = false ∧
  State.reset.lqiCal = .asWritten

/-- 70_reset_and_hazards.md §1: the reset event gives CMD, CFG and REFUSED their reset values from every state and writes no
other state of CKC; the hardwired fields and the reserved bits read as the table says.  The intents' values are the spec's
own decision (92_eei_decisions.md D6).  What it does to the model's own fields is the model's choice
(notes/assumptions/10.md): the waiting inputs stay, and the record of responses starts again, so that the new run shows
none. -/
def Obligations.ResetInputWritesTheResetTable : Prop :=
  ∀ s : State, ∃ t : State, performInput .reset s = .next t ∧
    t = { s with cmd := ⟨0x78#8, ⟨.fin (-1), .fin (-1), .fin (-1), .fin (-1)⟩, ⟨.fin (-1), .fin (-1), .fin (-1), .fin (-1)⟩⟩,
                 cfg := ⟨true⟩, refused := false, responses := [] } ∧
    t.shown = some ([], t.cmd, t.cfg) ∧
    readVersion t = 0x01#8 ∧ readOpcode t = 0x80#8 ∧ readCfg t = 0x01#8

/-- The invariant (R25, R220, R221, R63) holds after reset. -/
def Obligations.InvariantHoldsAtReset : Prop := State.reset.Inv

/-- R25, with R220 and R221: every step keeps the invariant: the stored digital intents stay admitted, every response
shown has the shape of R220 and code 4 is never sent. -/
def Obligations.StepKeepsTheInvariant : Prop :=
  ∀ s t : State, s.Inv → step s = .next t → t.Inv

/-- 20_memory.md §4: over every interleaving the port may choose, the invariant is kept, and whichever lane is accepted
next, its request completes: no run stops. -/
def Obligations.EveryInterleavingKeepsTheInvariantAndCompletes : Prop :=
  ∀ s t : State, s.Inv → Run s t →
    t.Inv ∧ (∀ k ∈ readyLanes t, ∃ u, stepLane k t = .next u) ∧ ∃ u, step t = .next u
end

