-- ==== Sys2Proof/Laws/State.lean ====
section
/-! SUPPORT. One lemma per field per update of the state, so that no proof unfolds a record update. -/

namespace Sys2Proof.Machine

@[simp] theorem setAddr_addr (a : Byte) (s : State) : (setAddr a s).cmd.addr = a := rfl
@[simp] theorem setAddr_digital (a : Byte) (s : State) : (setAddr a s).cmd.digital = s.cmd.digital := rfl
@[simp] theorem setAddr_analog (a : Byte) (s : State) : (setAddr a s).cmd.analog = s.cmd.analog := rfl
@[simp] theorem setAddr_cfg (a : Byte) (s : State) : (setAddr a s).cfg = s.cfg := rfl
@[simp] theorem setAddr_refused (a : Byte) (s : State) : (setAddr a s).refused = s.refused := rfl
@[simp] theorem setAddr_lqiCal (a : Byte) (s : State) : (setAddr a s).lqiCal = s.lqiCal := rfl
@[simp] theorem setAddr_lanes (a : Byte) (s : State) : (setAddr a s).lanes = s.lanes := rfl
@[simp] theorem setAddr_accepts (a : Byte) (s : State) : (setAddr a s).accepts = s.accepts := rfl
@[simp] theorem setAddr_serving (a : Byte) (s : State) : (setAddr a s).serving = s.serving := rfl
@[simp] theorem setAddr_responses (a : Byte) (s : State) : (setAddr a s).responses = s.responses := rfl

@[simp] theorem setDigital_addr (d : Quad Intent) (s : State) : (setDigital d s).cmd.addr = s.cmd.addr := rfl
@[simp] theorem setDigital_digital (d : Quad Intent) (s : State) : (setDigital d s).cmd.digital = d := rfl
@[simp] theorem setDigital_analog (d : Quad Intent) (s : State) : (setDigital d s).cmd.analog = s.cmd.analog := rfl
@[simp] theorem setDigital_cfg (d : Quad Intent) (s : State) : (setDigital d s).cfg = s.cfg := rfl
@[simp] theorem setDigital_refused (d : Quad Intent) (s : State) : (setDigital d s).refused = s.refused := rfl
@[simp] theorem setDigital_lqiCal (d : Quad Intent) (s : State) : (setDigital d s).lqiCal = s.lqiCal := rfl
@[simp] theorem setDigital_lanes (d : Quad Intent) (s : State) : (setDigital d s).lanes = s.lanes := rfl
@[simp] theorem setDigital_accepts (d : Quad Intent) (s : State) : (setDigital d s).accepts = s.accepts := rfl
@[simp] theorem setDigital_serving (d : Quad Intent) (s : State) : (setDigital d s).serving = s.serving := rfl
@[simp] theorem setDigital_responses (d : Quad Intent) (s : State) : (setDigital d s).responses = s.responses := rfl

@[simp] theorem setAnalog_addr (a : Quad Intent) (s : State) : (setAnalog a s).cmd.addr = s.cmd.addr := rfl
@[simp] theorem setAnalog_digital (a : Quad Intent) (s : State) : (setAnalog a s).cmd.digital = s.cmd.digital := rfl
@[simp] theorem setAnalog_analog (a : Quad Intent) (s : State) : (setAnalog a s).cmd.analog = a := rfl
@[simp] theorem setAnalog_cfg (a : Quad Intent) (s : State) : (setAnalog a s).cfg = s.cfg := rfl
@[simp] theorem setAnalog_refused (a : Quad Intent) (s : State) : (setAnalog a s).refused = s.refused := rfl
@[simp] theorem setAnalog_lqiCal (a : Quad Intent) (s : State) : (setAnalog a s).lqiCal = s.lqiCal := rfl
@[simp] theorem setAnalog_lanes (a : Quad Intent) (s : State) : (setAnalog a s).lanes = s.lanes := rfl
@[simp] theorem setAnalog_accepts (a : Quad Intent) (s : State) : (setAnalog a s).accepts = s.accepts := rfl
@[simp] theorem setAnalog_serving (a : Quad Intent) (s : State) : (setAnalog a s).serving = s.serving := rfl
@[simp] theorem setAnalog_responses (a : Quad Intent) (s : State) : (setAnalog a s).responses = s.responses := rfl

@[simp] theorem writeCfg_cmd (v : Byte) (s : State) : (writeCfg v s).cmd = s.cmd := rfl
@[simp] theorem writeCfg_chken (v : Byte) (s : State) : (writeCfg v s).cfg.chken = v.getLsbD 0 := rfl
@[simp] theorem writeCfg_refused (v : Byte) (s : State) : (writeCfg v s).refused = s.refused := rfl
@[simp] theorem writeCfg_lqiCal (v : Byte) (s : State) : (writeCfg v s).lqiCal = s.lqiCal := rfl
@[simp] theorem writeCfg_lanes (v : Byte) (s : State) : (writeCfg v s).lanes = s.lanes := rfl
@[simp] theorem writeCfg_accepts (v : Byte) (s : State) : (writeCfg v s).accepts = s.accepts := rfl
@[simp] theorem writeCfg_serving (v : Byte) (s : State) : (writeCfg v s).serving = s.serving := rfl
@[simp] theorem writeCfg_responses (v : Byte) (s : State) : (writeCfg v s).responses = s.responses := rfl

@[simp] theorem answer_cmd (c : ResponseCode) (p : Payload) (s : State) : (answer c p s).cmd = s.cmd := rfl
@[simp] theorem answer_cfg (c : ResponseCode) (p : Payload) (s : State) : (answer c p s).cfg = s.cfg := rfl
@[simp] theorem answer_refused (c : ResponseCode) (p : Payload) (s : State) : (answer c p s).refused = s.refused := rfl
@[simp] theorem answer_lqiCal (c : ResponseCode) (p : Payload) (s : State) : (answer c p s).lqiCal = s.lqiCal := rfl
@[simp] theorem answer_lanes (c : ResponseCode) (p : Payload) (s : State) : (answer c p s).lanes = s.lanes := rfl
@[simp] theorem answer_accepts (c : ResponseCode) (p : Payload) (s : State) : (answer c p s).accepts = s.accepts := rfl
@[simp] theorem answer_serving (c : ResponseCode) (p : Payload) (s : State) : (answer c p s).serving = s.serving := rfl
@[simp] theorem answer_responses (c : ResponseCode) (p : Payload) (s : State) :
    (answer c p s).responses = s.responses ++ [⟨s.serving, c, p⟩] := rfl

@[simp] theorem markRefused_cmd (s : State) : (markRefused s).cmd = s.cmd := rfl
@[simp] theorem markRefused_cfg (s : State) : (markRefused s).cfg = s.cfg := rfl
@[simp] theorem markRefused_refused (s : State) : (markRefused s).refused = true := rfl
@[simp] theorem markRefused_lqiCal (s : State) : (markRefused s).lqiCal = s.lqiCal := rfl
@[simp] theorem markRefused_lanes (s : State) : (markRefused s).lanes = s.lanes := rfl
@[simp] theorem markRefused_accepts (s : State) : (markRefused s).accepts = s.accepts := rfl
@[simp] theorem markRefused_serving (s : State) : (markRefused s).serving = s.serving := rfl
@[simp] theorem markRefused_responses (s : State) : (markRefused s).responses = s.responses := rfl

@[simp] theorem resetRegisters_cmd (s : State) : (resetRegisters s).cmd = State.reset.cmd := rfl
@[simp] theorem resetRegisters_cfg (s : State) : (resetRegisters s).cfg = State.reset.cfg := rfl
@[simp] theorem resetRegisters_refused (s : State) : (resetRegisters s).refused = false := rfl
@[simp] theorem resetRegisters_lqiCal (s : State) : (resetRegisters s).lqiCal = s.lqiCal := rfl
@[simp] theorem resetRegisters_lanes (s : State) : (resetRegisters s).lanes = s.lanes := rfl
@[simp] theorem resetRegisters_accepts (s : State) : (resetRegisters s).accepts = s.accepts := rfl
@[simp] theorem resetRegisters_serving (s : State) : (resetRegisters s).serving = s.serving := rfl
@[simp] theorem resetRegisters_responses (s : State) : (resetRegisters s).responses = s.responses := rfl

@[simp] theorem beginRun_cmd (s : State) : (beginRun s).cmd = s.cmd := rfl
@[simp] theorem beginRun_cfg (s : State) : (beginRun s).cfg = s.cfg := rfl
@[simp] theorem beginRun_refused (s : State) : (beginRun s).refused = s.refused := rfl
@[simp] theorem beginRun_lqiCal (s : State) : (beginRun s).lqiCal = s.lqiCal := rfl
@[simp] theorem beginRun_lanes (s : State) : (beginRun s).lanes = s.lanes := rfl
@[simp] theorem beginRun_accepts (s : State) : (beginRun s).accepts = s.accepts := rfl
@[simp] theorem beginRun_serving (s : State) : (beginRun s).serving = s.serving := rfl
@[simp] theorem beginRun_responses (s : State) : (beginRun s).responses = [] := rfl

end Sys2Proof.Machine
end

