-- ==== Sys2Proof/Laws/Ops.lean ====
section
/-! SUPPORT. What each way of ending an operation can do, and the operand checks: one lemma per shared operation. -/

namespace Sys2Proof.Machine

/-- `respond` always answers, and its one next state is s with one OK response. -/
theorem respond_eq_next_iff (p : Payload) (s t : State) : respond p s = .next t ↔ t = answer .ok p s := by
  simp [respond, eq_comm]

/-- `raise` always answers, and its one next state is s with one empty error response. -/
theorem raise_eq_next_iff (e : ErrorKind) (s t : State) : raise e s = .next t ↔ t = answer e.code .empty s := by
  simp [raise, eq_comm]

/-- `refuse` always answers, and its one next state is s with the mark set. -/
theorem refuse_eq_next_iff (r : RefuseReason) (s t : State) : refuse r s = .next t ↔ t = markRefused s := by
  simp [refuse, eq_comm]

/-- No error kind is sent as OK or as the reserved code 4 (R221). -/
theorem code_ne_ok (e : ErrorKind) : e.code ≠ .ok ∧ e.code ≠ .undefinedLqi := by cases e <;> simp [ErrorKind.code]

/-- `channels` gives the four elements of a list of four, in order. -/
theorem channels_eq_some_iff (l : List Intent) (q : Quad Intent) : channels l = some q ↔ l = quadList q := by
  obtain ⟨x0, x1, x2, x3⟩ := q
  unfold channels quadList
  split <;> simp_all

/-- `channels` fails exactly where `countOK` does (R123). -/
theorem channels_eq_none_iff (l : List Intent) : channels l = none ↔ countOK l = false := by
  match l with
  | [] | [_] | [_, _] | [_, _, _] | [_, _, _, _] => simp [channels, countOK]
  | _ :: _ :: _ :: _ :: _ :: _ => simp [channels, countOK]

/-- R124, R125: four intents are all admitted exactly when none of them is `posInf` or `nan`. -/
theorem admitAll_iff (q : Quad Intent) :
    admitAll q = true ↔ Intent.posInf ∉ quadList q ∧ Intent.nan ∉ quadList q := by
  obtain ⟨x0, x1, x2, x3⟩ := q
  cases x0 <;> cases x1 <;> cases x2 <;> cases x3 <;> simp [admitAll, quadAll, admitDigital, quadList]

/-- A byte made by `mod 256` is the integer mod 256. -/
theorem byteOfInt_toNat (a : Int) : ((byteOfInt a).toNat : Int) = a % 256 := by
  have h := Int.emod_nonneg a (show (256 : Int) ≠ 0 by decide)
  have h' := Int.emod_lt_of_pos a (show (0 : Int) < 256 by decide)
  rw [byteOfInt, BitVec.toNat_ofNat]
  omega

/-- A byte is its own value mod 256. -/
@[simp] theorem byteOfInt_intOfByte (b : Byte) : byteOfInt (intOfByte b) = b := by
  apply BitVec.eq_of_toNat_eq
  have h := byteOfInt_toNat (intOfByte b)
  have hb := b.isLt
  simp only [intOfByte] at h ⊢
  omega

/-- R29, R131: the bits of CFG as it is read. -/
theorem readCfg_getLsbD (s : State) (i : Nat) : (readCfg s).getLsbD i = (decide (i = 0) && s.cfg.chken) := by
  unfold readCfg
  by_cases h : s.cfg.chken = true
  · rcases i with _ | i
    · simp [h]
    · simp [h]
  · simp_all

end Sys2Proof.Machine
end

