-- ==== Sys2Proof/Laws/Framer.lean ====
section
/-! SUPPORT. Hex digits there and back, and the shape of a rendered line. -/

namespace Sys2Proof.Machine

/-- A digit of `hexDigit` has its value under `hexVal`. -/
theorem hexVal_hexDigit (n : Nat) (h : n < 16) : hexVal (hexDigit n) = some n := by
  have : ∀ m : Fin 16, hexVal (hexDigit m) = some m.val := by decide
  exact this ⟨n, h⟩

/-- The two digits of a byte parse to it. -/
theorem parseHexByte_digits (b : Byte) :
    parseHexByte (hexDigit (b.toNat / 16)) (hexDigit (b.toNat % 16)) = some b := by
  have hb := b.isLt
  rw [parseHexByte, hexVal_hexDigit _ (by omega), hexVal_hexDigit _ (by omega)]
  simp only [Option.some.injEq]
  apply BitVec.eq_of_toNat_eq
  rw [BitVec.toNat_ofNat]
  omega

/-- R101 on a byte: its two digits, high digit first. -/
theorem toHexByte_intOfByte (b : Byte) :
    toHexByte (intOfByte b) = [hexDigit (b.toNat / 16), hexDigit (b.toNat % 16)] := by
  have hb := b.isLt
  have h : (intOfByte b % 256).toNat = b.toNat := by simp only [intOfByte]; omega
  simp only [toHexByte, h]

@[simp] theorem hexBody_nil : hexBody [] = [] := rfl

theorem hexBody_cons (b : Byte) (bs : List Byte) :
    hexBody (b :: bs) = hexDigit (b.toNat / 16) :: hexDigit (b.toNat % 16) :: hexBody bs := by
  simp [hexBody, List.flatMap_cons, toHexByte_intOfByte]

/-- Two digits for each byte. -/
@[simp] theorem hexBody_length (b : List Byte) : (hexBody b).length = 2 * b.length := by
  induction b with
  | nil => rfl
  | cons x xs ih => rw [hexBody_cons]; simp only [List.length_cons, ih]; omega

/-- Parsing the digits of a list of bytes gives the list. -/
theorem parsePairs_hexBody (b : List Byte) : parsePairs (hexBody b) = some b := by
  induction b with
  | nil => rfl
  | cons x xs ih => rw [hexBody_cons, parsePairs, parseHexByte_digits, ih]

/-- Every character of a body of digits has a hex value. -/
theorem hexVal_of_mem_hexBody (b : List Byte) (c : Char) (h : c ∈ hexBody b) : ∃ n < 16, c = hexDigit n := by
  induction b with
  | nil => simp at h
  | cons x xs ih =>
    have hx := x.isLt
    rw [hexBody_cons, List.mem_cons, List.mem_cons] at h
    rcases h with rfl | rfl | h
    · exact ⟨x.toNat / 16, by omega, rfl⟩
    · exact ⟨x.toNat % 16, by omega, rfl⟩
    · exact ih h

/-- A dropped end marker was CR LF, and nothing else was dropped (R202). -/
theorem stripEnd_cases (s : Str) : stripEnd s = s ∨ s = stripEnd s ++ endMarker := by
  unfold stripEnd
  split
  · next h =>
    right
    obtain ⟨hl, h1, h2⟩ := h
    have e1 : s.length - 2 + 1 = s.length - 1 := by omega
    obtain ⟨hlt1, h1'⟩ := List.getElem?_eq_some_iff.1 h1
    obtain ⟨hlt2, h2'⟩ := List.getElem?_eq_some_iff.1 h2
    conv_lhs => rw [← List.take_append_drop (s.length - 2) s]
    congr 1
    rw [List.drop_eq_getElem_cons hlt1, h1', List.drop_eq_getElem_cons (by omega)]
    simp only [e1, h2', endMarker]
    rw [List.drop_eq_nil_of_le (by omega)]
  · exact Or.inl rfl

/-- One CR LF at the end is dropped (R202). -/
@[simp] theorem stripEnd_append_endMarker (x : Str) : stripEnd (x ++ endMarker) = x := by
  have h2 : (x ++ endMarker).length = x.length + 2 := by simp [endMarker]
  unfold stripEnd
  rw [if_pos]
  · rw [h2]; simp
  · rw [h2]
    refine ⟨by omega, ?_, ?_⟩
    · simp [endMarker]
    · simp [endMarker]

/-- One start marker is dropped (R202). -/
@[simp] theorem stripStart_cons (x : Str) : stripStart (startMarker :: x) = x := by simp [stripStart]

/-- R202 on a rendered line: the digits. -/
@[simp] theorem stripMarkers_renderLine (b : List Byte) : stripMarkers (renderLine b) = hexBody b := by
  simp [stripMarkers, renderLine]

end Sys2Proof.Machine
end

