-- ==== Sys2Proof/Laws/Packer.lean ====
section
/-! SUPPORT. When the packer has a frame to give, and what ENCCMD and ENC answer with it. -/

namespace Sys2Proof.Machine

/-- R140: a lane is "never reached" exactly for the intents R124 does not admit. -/
theorem digitalLane_isSome (x : Intent) : (digitalLane x).isSome = admitDigital x := by
  cases x with
  | fin q => by_cases h : q < 0 <;> simp [digitalLane, admitDigital, h]
  | posInf => rfl
  | negInf => rfl
  | nan => rfl

/-- R141: the four lanes of four admitted intents, and the two bytes they make. -/
theorem packDigital_eq_some_iff (d : Quad Intent) (levels mask : Byte) :
    packDigital d = some (levels, mask) ↔
      ∃ m0 l0 m1 l1 m2 l2 m3 l3,
        digitalLane d.ch0 = some (m0, l0) ∧ digitalLane d.ch1 = some (m1, l1) ∧
        digitalLane d.ch2 = some (m2, l2) ∧ digitalLane d.ch3 = some (m3, l3) ∧
        levels = laneBits l0 l1 l2 l3 ∧ mask = laneBits m0 m1 m2 m3 := by
  unfold packDigital
  constructor
  · intro h
    split at h
    · next m0 l0 m1 l1 m2 l2 m3 l3 h0 h1 h2 h3 =>
      simp only [Option.some.injEq, Prod.mk.injEq] at h
      exact ⟨m0, l0, m1, l1, m2, l2, m3, l3, h0, h1, h2, h3, h.1.symm, h.2.symm⟩
    · cases h
  · rintro ⟨m0, l0, m1, l1, m2, l2, m3, l3, h0, h1, h2, h3, rfl, rfl⟩
    rw [h0, h1, h2, h3]

/-- R141: the packer has two bytes to give exactly when all four intents are admitted. -/
theorem packDigital_isSome (d : Quad Intent) : (packDigital d).isSome = admitAll d := by
  have h0 := digitalLane_isSome d.ch0
  have h1 := digitalLane_isSome d.ch1
  have h2 := digitalLane_isSome d.ch2
  have h3 := digitalLane_isSome d.ch3
  simp only [admitAll, quadAll, ← h0, ← h1, ← h2, ← h3, packDigital]
  cases digitalLane d.ch0 <;> cases digitalLane d.ch1 <;> cases digitalLane d.ch2 <;> cases digitalLane d.ch3 <;> rfl

/-- R148: there is a line exactly when all four digital intents are admitted. -/
theorem encodeFrame_isSome (addr : Byte) (d a : Quad Intent) : (encodeFrame addr d a).isSome = admitAll d := by
  rw [← packDigital_isSome, encodeFrame, assemble, packFrame]
  cases packDigital d <;> rfl

/-- What `respondFrame` can do: the line's OK response, or the fault where a lane is "never reached". -/
theorem respondFrame_cases (addr : Byte) (d a : Quad Intent) (s : State) :
    (∃ line, encodeFrame addr d a = some line ∧ respondFrame addr d a s = .next (answer .ok (.str line) s)) ∨
    (encodeFrame addr d a = none ∧ respondFrame addr d a s = .fault .digitalLaneNeverReached) := by
  unfold respondFrame
  cases h : encodeFrame addr d a with
  | none => exact Or.inr ⟨rfl, rfl⟩
  | some line => exact Or.inl ⟨line, rfl, rfl⟩

/-- R43, R141: bit i of a lane byte is lane i's bit; bits 7:4 are 0. -/
theorem laneBits_getLsbD (b0 b1 b2 b3 : Bool) (i : Nat) :
    (laneBits b0 b1 b2 b3).getLsbD i = (([b0, b1, b2, b3] : List Bool)[i]?).getD false := by
  have h : ∀ b0 b1 b2 b3 : Bool, ∀ i : Fin 8,
      (laneBits b0 b1 b2 b3).getLsbD i = (([b0, b1, b2, b3] : List Bool)[i.val]?).getD false := by decide
  by_cases hi : i < 8
  · exact h b0 b1 b2 b3 ⟨i, hi⟩
  · rw [BitVec.getLsbD_of_ge _ _ (by omega), List.getElem?_eq_none (by simp; omega)]
    rfl

end Sys2Proof.Machine
end

