-- ==== Sys2Proof/Laws/PerInstr.lean ====
section
/-! SUPPORT. Statements made per instruction, one lemma per constructor of `Instr`. -/

namespace Sys2Proof.Laws.OperandRecord

/-- R60 to R62: the header an instruction is encoded with asks for exactly the operand types of the record it is encoded
with; the two wire-frame rows have a header that asks for none (R61). -/
def Statement (i : Instr) : Prop :=
  headerOperandTypes (encode i).header =
    if i.isOperation then some ((encode i).operands.map Operand.type) else none

theorem csum (bytes : List Byte) : Statement (.csum bytes) := by
  simp [Statement, headerOperandTypes, operandTypes, encode, Instr.isOperation, Operand.type]
theorem hexb (v : Int) : Statement (.hexb v) := by
  simp [Statement, headerOperandTypes, operandTypes, encode, Instr.isOperation, Operand.type]
theorem setd (l : List Intent) : Statement (.setd l) := by
  simp [Statement, headerOperandTypes, operandTypes, encode, Instr.isOperation, Operand.type]
theorem seta (l : List Intent) : Statement (.seta l) := by
  simp [Statement, headerOperandTypes, operandTypes, encode, Instr.isOperation, Operand.type]
theorem setadr (a : Int) : Statement (.setadr a) := by
  simp [Statement, headerOperandTypes, operandTypes, encode, Instr.isOperation, Operand.type]
theorem rdcmd : Statement .rdcmd := rfl
theorem enccmd : Statement .enccmd := rfl
theorem enc (d a : List Intent) (addr : Option Int) : Statement (.enc d a addr) := by
  simp [Statement, headerOperandTypes, operandTypes, encode, Instr.isOperation, Operand.type]
theorem dec (line : Str) : Statement (.dec line) := by
  simp [Statement, headerOperandTypes, operandTypes, encode, Instr.isOperation, Operand.type]
theorem wcfg (v : Byte) : Statement (.wcfg v) := by
  simp [Statement, headerOperandTypes, operandTypes, encode, Instr.isOperation, Operand.type]
theorem rdcfg : Statement .rdcfg := rfl
theorem frameChangeOutput : Statement .frameChangeOutput := rfl
theorem frameStatusNotify : Statement .frameStatusNotify := rfl

end Sys2Proof.Laws.OperandRecord
end

