-- ==== Sys2Proof/Laws/Port.lean ====
section
/-! SUPPORT. What accepting an input can do. -/

namespace Sys2Proof.Machine

/-- `takeInput` takes the first input of lane k and leaves every other lane as it is. -/
theorem takeInput_eq_some_iff (lanes : List (List PortInput)) (k : Nat) (x : PortInput)
    (lanes' : List (List PortInput)) :
    takeInput lanes k = some (x, lanes') ↔ ∃ rest, lanes[k]? = some (x :: rest) ∧ lanes' = lanes.set k rest := by
  induction lanes generalizing k lanes' with
  | nil => simp [takeInput]
  | cons lane rest ih =>
    cases k with
    | zero =>
      cases lane with
      | nil => simp [takeInput]
      | cons y ys =>
        simp only [takeInput, Option.some.injEq, Prod.mk.injEq, List.getElem?_cons_zero, List.set_cons_zero,
          List.cons.injEq]
        constructor
        · rintro ⟨rfl, rfl⟩
          exact ⟨ys, ⟨rfl, rfl⟩, rfl⟩
        · rintro ⟨r, ⟨rfl, rfl⟩, rfl⟩
          exact ⟨rfl, rfl⟩
    | succ k =>
      have hstep : takeInput (lane :: rest) (k + 1) =
          (match takeInput rest k with
            | none => none
            | some (x, rest') => some (x, lane :: rest')) := by
        cases lane <;> rfl
      rw [hstep]
      simp only [List.getElem?_cons_succ, List.set_cons_succ]
      constructor
      · intro h
        split at h
        · cases h
        · next y rest' heq =>
          simp only [Option.some.injEq, Prod.mk.injEq] at h
          obtain ⟨rfl, rfl⟩ := h
          obtain ⟨r, h1, h2⟩ := (ih k rest').1 heq
          exact ⟨r, h1, by rw [h2]⟩
      · rintro ⟨r, h1, rfl⟩
        rw [(ih k (rest.set k r)).2 ⟨r, h1, rfl⟩]

/-- The lanes counted from j that are ready are those whose list is not empty. -/
theorem mem_readyFrom_iff (lanes : List (List PortInput)) (j k : Nat) :
    k ∈ readyFrom j lanes ↔ ∃ i x rest, k = j + i ∧ lanes[i]? = some (x :: rest) := by
  induction lanes generalizing j with
  | nil => simp [readyFrom]
  | cons lane rest ih =>
    cases lane with
    | nil =>
      rw [readyFrom, ih]
      constructor
      · rintro ⟨i, x, r, rfl, h⟩
        exact ⟨i + 1, x, r, by omega, by simpa using h⟩
      · rintro ⟨i, x, r, rfl, h⟩
        cases i with
        | zero => simp at h
        | succ i => exact ⟨i, x, r, by omega, by simpa using h⟩
    | cons y ys =>
      rw [readyFrom, List.mem_cons, ih]
      constructor
      · rintro (rfl | ⟨i, x, r, rfl, h⟩)
        · exact ⟨0, y, ys, by omega, by simp⟩
        · exact ⟨i + 1, x, r, by omega, by simpa using h⟩
      · rintro ⟨i, x, r, rfl, h⟩
        cases i with
        | zero => exact Or.inl (by omega)
        | succ i => exact Or.inr ⟨i, x, r, by omega, by simpa using h⟩

/-- The port picks nothing exactly when no lane is ready, and otherwise picks a ready lane. -/
theorem pickLane_cases (s : State) :
    (readyLanes s = [] ∧ pickLane s = none) ∨ ∃ k ∈ readyLanes s, pickLane s = some k := by
  unfold pickLane
  match h : readyLanes s with
  | [] => exact Or.inl ⟨rfl, rfl⟩
  | [k] => exact Or.inr ⟨k, by simp, rfl⟩
  | k :: k' :: ks =>
    have hlt : Config.acceptChoice s.accepts % (k :: k' :: ks).length < (k :: k' :: ks).length :=
      Nat.mod_lt _ (by simp)
    exact Or.inr ⟨_, List.getElem_mem hlt, List.getElem?_eq_getElem hlt⟩

end Sys2Proof.Machine
end

