-- ==== Sys2Proof/Laws/Unpacker.lean ====
section
/-! SUPPORT. The status frame and its bytes, and what DEC can do. -/

namespace Sys2Proof.Machine

/-- R74: the frame of a frame's bytes is the frame. -/
@[simp] theorem statusNotifyOfBytes_bytes (f : StatusNotifyFrame) : statusNotifyOfBytes f.bytes = some f := rfl

/-- R74: the bytes of the frame read from a list are the list. -/
theorem bytes_of_statusNotifyOfBytes (b : List Byte) (f : StatusNotifyFrame)
    (h : statusNotifyOfBytes b = some f) : f.bytes = b := by
  unfold statusNotifyOfBytes at h
  split at h
  · simp only [Option.some.injEq] at h
    subst h
    rfl
  · cases h

/-- R74: exactly the lists of 24 bytes are frames. -/
theorem statusNotifyOfBytes_isSome (b : List Byte) (h : b.length = 24) : ∃ f, statusNotifyOfBytes b = some f := by
  match b, h with
  | [_, _, _, _, _, _, _, _, _, _, _, _, _, _, _, _, _, _, _, _, _, _, _, _], _ => exact ⟨_, rfl⟩

/-- R181: the three things DEC can do. -/
theorem execDec_cases (line : Str) (s : State) :
    (parseStatusLine line = none ∧ execDec line s = raise .malformedFrame s) ∨
    (∃ f, parseStatusLine line = some f ∧ checkOK s.cfg.chken f = false ∧ execDec line s = raise .checksumMismatch s) ∨
    (∃ f, parseStatusLine line = some f ∧ checkOK s.cfg.chken f = true ∧
      execDec line s = respond (.status (statusRecord s.lqiCal f)) s) := by
  unfold execDec
  cases hp : parseStatusLine line with
  | none => exact Or.inl ⟨rfl, rfl⟩
  | some f =>
    cases hc : checkOK s.cfg.chken f with
    | false => exact Or.inr (Or.inl ⟨f, rfl, hc, by simp [hc]⟩)
    | true => exact Or.inr (Or.inr ⟨f, rfl, hc, by simp [hc]⟩)

end Sys2Proof.Machine
end

