-- ==== Sys2Proof/Tests/Slice0.lean ====
section
/-! SUPPORT. Tests on single steps, with results taken from the spec's worked examples and tables (95_test_vectors.md, cited
as W<n> or by section), the words of the encodings, the well-formedness smoke tests, and a witness for every statement of
Certificates/Slice0/Obligations.lean that has hypotheses. -/

open Sys2Proof Sys2Proof.Machine Sys2Proof.Claims

namespace Sys2Proof.Tests

/-- The code and payload of the last response a result shows; nothing for a stop. -/
def lastAnswer : Result → Option (ResponseCode × Payload)
  | .next t => t.responses.getLast?.map (fun r => (r.code, r.payload))
  | .fault _ => none
  | .refused _ => none

/-- The CMD register a result leaves. -/
def cmdAfter : Result → Option Cmd
  | .next t => some t.cmd
  | .fault _ => none
  | .refused _ => none

/-- The state a result leaves, or the reset state for a stop. -/
def stateAfter : Result → State
  | .next t => t
  | .fault _ => State.reset
  | .refused _ => State.reset

/-- The reset state with CHKEN clear. -/
def unchecked : State := { State.reset with cfg := ⟨false⟩ }

/-- Four intents that are -1. -/
def off : List Intent := [.fin (-1), .fin (-1), .fin (-1), .fin (-1)]

def offQuad : Quad Intent := ⟨.fin (-1), .fin (-1), .fin (-1), .fin (-1)⟩

/-- The frame whose 24 bytes are all 0. -/
def zeroFrame : StatusNotifyFrame :=
  ⟨0, 0, 0, 0, 0, ⟨0, 0, 0, 0⟩, 0, 0, 0, 0, 0, 0, 0, 0, 0, ⟨0, 0, 0, 0⟩, 0, 0⟩

/-- The line of W9, and the same with its checksum byte DE. -/
def lineW9 : Str := ":7881150157810076ED780BE1000A942900013408190254DF\r\n".toList
def lineW9Bad : Str := ":7881150157810076ED780BE1000A942900013408190254DE\r\n".toList

/-- The full record of W9. -/
def recordW9 : StatusRecord where
  senderAddressId := 0x78
  packetId := 0x15
  lqiRaw := 0x57
  linkQualityIndicator := .known (-1740 / 1361)
  senderSerialNumber := 0x810076ED
  receiverAddressId := 0x78
  timestampSeconds := 3041 / 64
  relayCount := 0
  powerSupplyVoltageMillivolts := 2708
  digital := ⟨0, -1, -1, -1⟩
  analog := ⟨832, 132, 404, 36⟩

/-! ### Well-formedness: each check refuses an ill-formed term -/

theorem test_wf_accepts_enc : (Request.mk 0x08 [.intents off, .intents off, .optInt none]).wellFormed = true := by decide
theorem test_wf_refuses_high_nibble : (Request.mk 0x16 []).wellFormed = false := by decide
theorem test_wf_refuses_reserved_code : (Request.mk 0x0C []).wellFormed = false := by decide
theorem test_wf_refuses_wrong_type : (Request.mk 0x0A [.int 1]).wellFormed = false := by decide
theorem test_wf_refuses_missing_operand : (Request.mk 0x08 [.intents off, .intents off]).wellFormed = false := by decide
theorem test_wf_refuses_extra_operand : (Request.mk 0x06 [.int 0]).wellFormed = false := by decide
theorem test_port_refuses_wrong_type : (Request.mk 0x01 [.str []]).portTyped = false := by decide
theorem test_port_accepts_illegal_header : (Request.mk 0x81 [.str []]).portTyped = true := by decide
theorem test_wf_refuses_wire_rows :
    Instr.wellFormed .frameChangeOutput = false ∧ Instr.wellFormed .frameStatusNotify = false := by decide

/-! ### Decoding: the header words of 30_encoding.md R62, written out as `0000` and the OP field -/

theorem test_decode_csum : decode ⟨0b00000001#8, [.bytes [0xFF]]⟩ = .ok (.csum [0xFF]) := by decide
theorem test_decode_hexb : decode ⟨0b00000010#8, [.int (-257)]⟩ = .ok (.hexb (-257)) := by decide
theorem test_decode_setd : decode ⟨0b00000011#8, [.intents off]⟩ = .ok (.setd off) := by decide
theorem test_decode_seta : decode ⟨0b00000100#8, [.intents [.posInf]]⟩ = .ok (.seta [.posInf]) := by decide
theorem test_decode_setadr : decode ⟨0b00000101#8, [.int 0x178]⟩ = .ok (.setadr 0x178) := by decide
theorem test_decode_rdcmd : decode ⟨0b00000110#8, []⟩ = .ok .rdcmd := by decide
theorem test_decode_enccmd : decode ⟨0b00000111#8, []⟩ = .ok .enccmd := by decide
theorem test_decode_enc :
    decode ⟨0b00001000#8, [.intents [.nan], .intents off, .optInt (some 1)]⟩ = .ok (.enc [.nan] off (some 1)) := by decide
theorem test_decode_dec : decode ⟨0b00001001#8, [.str ['0']]⟩ = .ok (.dec ['0']) := by decide
theorem test_decode_wcfg : decode ⟨0b00001010#8, [.byte 0xFE]⟩ = .ok (.wcfg 0xFE) := by decide
theorem test_decode_rdcfg : decode ⟨0b00001011#8, []⟩ = .ok .rdcfg := by decide
theorem test_decode_wire_rows :
    decode ⟨0b10000000#8, []⟩ = .ok .frameChangeOutput ∧ decode ⟨0b10000001#8, []⟩ = .ok .frameStatusNotify := by decide
/-- §2.7 and R61: reserved codes and headers with `H[7:4] ≠ 0`. -/
theorem test_decode_refuses_illegal_headers :
    [0x00#8, 0x0C#8, 0x0D#8, 0x0E#8, 0x0F#8, 0x10#8, 0x11#8, 0x1B#8, 0x82#8, 0xFF#8].all
      (fun h => decode ⟨h, [.int 1]⟩ == .error .illegalOperation) = true := by decide
theorem test_decode_refuses_mistyped_record : decode ⟨0x0A#8, [.int 1]⟩ = .error .operandRecord := by decide
/-- Every row of spec/opcode_table.json is read from its word, and no other byte is a row. -/
theorem test_table_words :
    ((List.range 256).filter (fun w => (decodeTableWord 8 w).isSome)) =
      [0x01, 0x02, 0x03, 0x04, 0x05, 0x06, 0x07, 0x08, 0x09, 0x0A, 0x0B, 0x80, 0x81] := by decide
theorem test_table_word_width : decodeTableWord 16 0x01 = none := by decide

/-! ### Checksum and hex (W1 to W3, §2.1) -/

theorem test_csum_w5_body :
    lastAnswer (exec (.csum [0x78, 0x80, 0x01, 0, 0, 0xFF, 0xFF, 0xFF, 0xFF, 0xFF, 0xFF, 0xFF, 0xFF]) State.reset) =
      some (.ok, .byte 0x0F) := by decide
theorem test_csum_wraps_and_empty :
    lastAnswer (exec (.csum [0x80, 0x80]) State.reset) = some (.ok, .byte 0x00) ∧
    lastAnswer (exec (.csum []) State.reset) = some (.ok, .byte 0x00) := by decide
theorem test_hexb_negative : lastAnswer (exec (.hexb (-136)) State.reset) = some (.ok, .str ['7', '8']) := by decide
theorem test_hexb_w1_w2 :
    lastAnswer (exec (.hexb 11) State.reset) = some (.ok, .str ['0', 'B']) ∧
    lastAnswer (exec (.hexb 4095) State.reset) = some (.ok, .str ['F', 'F']) := by decide

/-! ### Envelope and configuration (§2.7, 41_envelope.md examples) -/

theorem test_setadr_wraps : (cmdAfter (exec (.setadr 0x178) State.reset)).map Cmd.addr = some 0x78 := by decide
theorem test_setadr_negative : (cmdAfter (exec (.setadr (-1)) State.reset)).map Cmd.addr = some 0xFF := by decide
theorem test_setd_stores :
    (cmdAfter (exec (.setd [.fin 1, .fin (-1), .fin 0, .fin 1]) State.reset)).map Cmd.digital =
      some ⟨.fin 1, .fin (-1), .fin 0, .fin 1⟩ := by decide
/-- P5: `SETD [1, +inf, 0, 0]` is refused: no response, CMD as at reset, REFUSED set, and the run shows nothing. -/
theorem test_setd_refused :
    exec (.setd [.fin 1, .posInf, .fin 0, .fin 0]) State.reset = .next { State.reset with refused := true } ∧
    State.shown { State.reset with refused := true } = none := ⟨rfl, rfl⟩
theorem test_seta_rejects_three :
    exec (.seta [.fin 50, .fin 13, .fin 89]) State.reset =
      .next (answered State.reset .invalidChannelCount .empty) := rfl
theorem test_seta_takes_any_intent :
    (cmdAfter (exec (.seta [.fin 101, .fin (-1), .nan, .posInf]) State.reset)).map Cmd.analog =
      some ⟨.fin 101, .fin (-1), .nan, .posInf⟩ := by decide
/-- 41_envelope.md R127: straight after reset. -/
theorem test_rdcmd_reset :
    lastAnswer (exec .rdcmd State.reset) = some (.ok, .command 0x78 offQuad offQuad 0x01 0x80) := by decide
theorem test_wcfg_clears : (stateAfter (exec (.wcfg 0xFE) State.reset)).cfg.chken = false := by decide
theorem test_wcfg_sets : (stateAfter (exec (.wcfg 0xFF) unchecked)).cfg.chken = true := by decide
theorem test_rdcfg_both :
    lastAnswer (exec .rdcfg State.reset) = some (.ok, .byte 0x01) ∧
    lastAnswer (exec .rdcfg unchecked) = some (.ok, .byte 0x00) := by decide

/-! ### Packer (W4 to W7, W10, §2.2 to §2.4) -/

theorem test_pack_digital_vectors :
    packDigital ⟨.fin (2999 / 1000), .fin (1999 / 1000), .fin (-1 / 2), .negInf⟩ = some (0x02, 0x03) ∧
    packDigital ⟨.fin 3, .fin (7 / 10), .fin 1000000000, .fin 0⟩ = some (0x01, 0x0F) := by decide +kernel
theorem test_pack_analog_vectors :
    packAnalog (.fin (9 / 100)) = (0x00, 0x00) ∧ packAnalog (.fin (1 / 10)) = (0x00, 0x01) ∧
    packAnalog (.fin 99) = (0x03, 0xF5) ∧ packAnalog (.fin (9999 / 100)) = (0x03, 0xFF) ∧
    packAnalog (.fin 100) = (0x04, 0x00) ∧ packAnalog (.fin (1000001 / 10000)) = (0xFF, 0xFF) ∧
    packAnalog (.fin (-1 / 10000)) = (0xFF, 0xFF) := by decide +kernel
theorem test_enccmd_reset :
    lastAnswer (exec .enccmd State.reset) = some (.ok, .str ":7880010000FFFFFFFFFFFFFFFF0F\r\n".toList) := by decide +kernel
/-- P2, step 6. -/
theorem test_enccmd_slave_one :
    lastAnswer (exec .enccmd { State.reset with cmd :=
      ⟨0x01, ⟨.fin 3, .fin (2999 / 1000), .fin (-1), .negInf⟩, ⟨.fin 50, .fin 13, .fin 89, .fin 28⟩⟩ }) =
      some (.ok, .str ":018001010302000085038F011E42\r\n".toList) := by decide +kernel
/-- W7, from a state whose CMD is another address. -/
theorem test_enc_default_address :
    lastAnswer (exec (.enc off [.fin 50, .fin 13, .fin 89, .fin 28] none)
      { State.reset with cmd := ⟨0x01, offQuad, offQuad⟩ }) =
      some (.ok, .str ":788001000002000085038F011ECF\r\n".toList) := by decide +kernel
theorem test_enc_address_operand :
    lastAnswer (exec (.enc [.fin 0, .fin 1, .fin 0, .fin 1] [.fin 1, .fin 99, .posInf, .negInf] (some 0x64)) State.reset) =
      some (.ok, .str ":6480010A0F000A03F5FFFFFFFF04\r\n".toList) := by decide +kernel

/-! ### Unpacker and framer (W8, W9, §2.5, §2.6) -/

theorem test_dec_w9 : lastAnswer (exec (.dec lineW9) State.reset) = some (.ok, .status recordW9) := by decide +kernel
/-- §2.5: the extreme frame X, in lowercase and without its markers. -/
theorem test_dec_x_lowercase_bare :
    lastAnswer (exec (.dec "0181ff01ffffffffff64ffff03ffffaaf50afe7f00ffe417".toList) State.reset) =
      some (.ok, .status
        { senderAddressId := 0x01, packetId := 0xFF, lqiRaw := 0xFF, linkQualityIndicator := .known (-1020 / 37),
          senderSerialNumber := 0xFFFFFFFF, receiverAddressId := 0x64, timestampSeconds := 65535 / 64,
          relayCount := 3, powerSupplyVoltageMillivolts := 65535, digital := ⟨-1, 0, -1, 0⟩,
          analog := ⟨4064, 2036, 8, -1⟩ }) := by decide +kernel
theorem test_dec_errors :
    lastAnswer (exec (.dec lineW9Bad) State.reset) = some (.checksumMismatch, .empty) ∧
    lastAnswer (exec (.dec (lineW9.dropLast)) unchecked) = some (.malformedFrame, .empty) ∧
    lastAnswer (exec (.dec (' ' :: lineW9)) State.reset) = some (.malformedFrame, .empty) := by decide +kernel
theorem test_dec_unchecked : lastAnswer (exec (.dec lineW9Bad) unchecked) = some (.ok, .status recordW9) := by decide +kernel
theorem test_lqi_linear :
    lqiCalibrate .linearDbm 0 = .known (-197 / 2) ∧ lqiCalibrate .linearDbm 0x75 = .known (-1151 / 20) ∧
    lqiCalibrate .asWritten 0x75 = .known (-2340 / 1151) := by decide +kernel

/-! ### Requests, the port and reset -/

theorem test_wire_header_is_illegal :
    lastAnswer (exec .frameChangeOutput State.reset) = some (.illegalOperation, .empty) ∧
    lastAnswer (exec .frameStatusNotify State.reset) = some (.illegalOperation, .empty) := by decide
/-- §2.7: headers 0x00, 0x0C, 0x0F, 0x11 and 0x81 answer IllegalOperation. -/
theorem test_illegal_headers_answer :
    [0x00#8, 0x0C#8, 0x0F#8, 0x11#8, 0x81#8].all
      (fun h => lastAnswer (step (present ⟨h, []⟩ State.reset)) == some (.illegalOperation, .empty)) = true := by decide
/-- The record of SETD under CSUM's header: a value the port does not carry. -/
theorem test_mistyped_record_faults :
    step (present ⟨0x01#8, [.intents []]⟩ State.reset) = .fault .operandRecordMistyped := rfl
theorem test_idle_step : step State.reset = .next State.reset := rfl
theorem test_step_from_table_word :
    lastAnswer (step (State.reset.withFetchWord 8 0x0B)) = some (.ok, .byte 0x01) := by decide
theorem test_reset_input :
    performInput .reset { unchecked with refused := true, accepts := 7 } = .next { State.reset with accepts := 7 } := rfl
/-- R31: a response given before or after a refused request is not shown once the reset input ends that run. -/
theorem test_reset_ends_refused_run :
    (stateAfter (performInput .reset { State.reset with refused := true, responses := [⟨0, .ok, .byte 1⟩] })).shown =
      some ([], State.reset.cmd, State.reset.cfg) := rfl
theorem test_transport_line :
    transmitLine ⟨0, .ok, .str (renderLine [0x01])⟩ = some ":01\r\n".toList ∧
    transmitLine ⟨0, .ok, .str (toHexByte 1)⟩ = none := by decide
/-- R65: the written form. -/
theorem test_assemble_lines :
    Asm.assembleLine "ENC [2.999, -1, nan, +inf], [0, -0.5, 12.5, -inf], 0x64".toList =
      some [.enc [.fin (2999 / 1000), .fin (-1), .nan, .posInf] [.fin 0, .fin (-1 / 2), .fin (25 / 2), .negInf] (some 0x64)] ∧
    Asm.assembleLine "DEC \":01\\r\\n\"".toList = some [.dec ":01\r\n".toList] ∧
    Asm.assembleLine "CSUM [0x78, 128]".toList = some [.csum [0x78, 0x80]] ∧
    Asm.assembleLine "WCFG 256".toList = none := by decide +kernel
/-- 41_envelope.md R125's corner case, as it is written there. -/
theorem test_assemble_exponent :
    Asm.assembleLine "SETD [-0.5, 0, 2.999, 1e9]".toList =
      some [.setd [.fin (-1 / 2), .fin 0, .fin (2999 / 1000), .fin 1000000000]] ∧
    Asm.assembleLine "SETD [1e, 0, 0, 0]".toList = none := by decide +kernel
/-- P1's first two requests, as the port carries them. -/
theorem test_assemble_program :
    Asm.assembleProgram ["SETD [1, -1, 0, 1]".toList, "ENCCMD".toList] =
      some [⟨0x03, [.intents [.fin 1, .fin (-1), .fin 0, .fin 1]]⟩, ⟨0x07, []⟩] := by decide +kernel

/-! ### Witnesses: the hypotheses of each statement can be met together -/

theorem witness_SetdWritesAllFourOrNone :
    (List.replicate 3 (Intent.fin 1)).length ≠ 4 ∧ (List.replicate 5 (Intent.fin 1)).length ≠ 4 ∧
    ([.fin 0, .fin 0, .fin 0, .nan] : List Intent).length = 4 ∧ notNumeric [.fin 0, .fin 0, .fin 0, .nan] ∧
    notNumeric [.posInf, .fin 0, .fin 0, .fin 0] ∧ ¬ notNumeric [.negInf, .fin (-1), .fin (-1), .fin (-1)] := by
  simp [notNumeric]
theorem witness_SetaWritesAllFourOrNone :
    ([] : List Intent).length ≠ 4 ∧ ([.nan, .posInf, .negInf, .fin 0] : List Intent) = [.nan, .posInf, .negInf, .fin 0] := by
  simp
theorem witness_CfgReservedBitsStayZero :
    exec .rdcfg State.reset = .next (answered State.reset .ok (.byte 0x01)) ∧
    exec (.wcfg 0xFE) State.reset = .next (answered unchecked .ok .empty) := ⟨rfl, rfl⟩
/-- For the statements about packing and encoding admitted intents, and about CMD holding them. -/
theorem witness_admitted :
    admitAll ⟨.negInf, .fin 0, .fin (-1), .fin (1 / 2)⟩ = true ∧ admitAll State.reset.cmd.digital = true := by decide
theorem witness_DigitalLaneIsMaskAndParity :
    ((-1 / 2 : Rat) < 0) ∧ (((0 : Nat) : Rat) ≤ 0 ∧ (0 : Rat) < ((0 : Nat) : Rat) + 1) ∧
    (((2 : Nat) : Rat) ≤ 2999 / 1000 ∧ (2999 / 1000 : Rat) < ((2 : Nat) : Rat) + 1) := by decide +kernel
/-- For PackAnalogScalesOrSaysNotControlled and ControlledPairIsNeverTheSentinel, at both ends of the range. -/
theorem witness_PackAnalogScalesOrSaysNotControlled :
    ((0 : Rat) ≤ 0 ∧ (0 : Rat) ≤ 100) ∧ ((0 : Rat) ≤ 100 ∧ (100 : Rat) ≤ 100) ∧
    (-1 / 10000 : Rat) < 0 ∧ (100 : Rat) < 1000001 / 10000 := by decide +kernel
theorem witness_FramesSumToZero : (assemble 0x78 offQuad offQuad).isSome = true ∧ checkOK true zeroFrame = true := by decide
theorem witness_EncEncodesItsOperands :
    (List.replicate 3 (Intent.fin 1)).length ≠ 4 ∧ off.length = 4 ∧
    notNumeric [.fin 1, .posInf, .fin 0, .fin 0] ∧ ¬ notNumeric off ∧ off = [.fin (-1), .fin (-1), .fin (-1), .fin (-1)] := by
  simp [notNumeric, off]
theorem witness_EncDoesNotReadTheRegisters :
    exec (.enc [] [] none) State.reset = .next (answered State.reset .invalidChannelCount .empty) := rfl
theorem witness_DigitalPackAndUnpackAreInverse :
    ∀ n ∈ quadList (⟨-1, 0, 1, 1⟩ : Quad Int), n = -1 ∨ n = 0 ∨ n = 1 := by decide
theorem witness_PwmPairReadsBackBigEndian : (0 : Nat) ≤ 1024 ∧ (1024 : Nat) ≤ 1024 := by decide
theorem witness_RenderedLineHoldsEachByteInOrder : ([0xAB, 0x0C] : List Byte)[1]? = some 0x0C := by decide
theorem witness_HexDigitsOfBothCasesHaveTheirValue :
    hexVal '0' = some 0 ∧ hexVal '9' = some 9 ∧ hexVal 'A' = some 10 ∧ hexVal 'f' = some 15 ∧
    hexVal 'G' = none ∧ hexVal '/' = none ∧ hexVal ':' = none ∧ hexVal '@' = none ∧ hexVal '`' = none := by decide
theorem witness_StripMarkersDropsOneOfEachIfThere :
    ¬ (['\r', '\n'] <:+ [':', '\n']) ∧ ([] : Str).head? ≠ some ':' ∧ ¬ (['\r', '\n'] <:+ ([] : Str)) ∧
    (['A', '\r'] : Str).head? ≠ some ':' := by decide
theorem witness_LineParsesExactlyWithFortyEightDigits :
    parseLine (renderLine zeroFrame.bytes) = some zeroFrame.bytes := by decide
theorem witness_ParsingInvertsRendering : zeroFrame.bytes.length = 24 := by decide
theorem witness_DecDecodesOneStatusLine :
    parseLine [] = none ∧
    parseLine (renderLine zeroFrame.bytes) =
      some [0, 0, 0, 0, 0, 0, 0, 0, 0, 0, 0, 0, 0, 0, 0, 0, 0, 0, 0, 0, 0, 0, 0, 0] ∧
    sumOf zeroFrame.bytes % 256 = 0 ∧ State.reset.cfg.chken = true ∧ unchecked.cfg.chken = false ∧
    parseLine (renderLine { zeroFrame with checksum := 1 }.bytes) =
      some [0, 0, 0, 0, 0, 0, 0, 0, 0, 0, 0, 0, 0, 0, 0, 0, 0, 0, 0, 0, 0, 0, 0, 1] ∧
    sumOf { zeroFrame with checksum := 1 }.bytes % 256 ≠ 0 := by decide
/-- Both ways to meet the hypothesis: a sum that is 0 mod 256, and CHKEN clear with a sum that is not. -/
theorem witness_ReceivedFrameIsDecodedWhole :
    sumOf zeroFrame.bytes % 256 = 0 ∧ unchecked.cfg.chken = false ∧
    sumOf { zeroFrame with checksum := 1 }.bytes % 256 ≠ 0 := by decide
theorem witness_AnalogInputIsScaledOrNotReported : (3 : Nat) < 4 ∧ (0xFE#8 : Byte) ≠ 0xFF#8 := by decide
theorem witness_DigitalInputReadsOnlyReportedLanes :
    (∀ i, i < 4 → (0x0A#8).getLsbD i = (0xFA#8).getLsbD i) ∧
    (∀ i, i < 4 → (0x0A#8).getLsbD i = true → (0xF5#8).getLsbD i = (0x00#8).getLsbD i) := by decide
/-- Lines that differ at bytes 1, 3 and 15 alone, with both sums 0 mod 256. -/
theorem witness_DecDoesNotReadUnsurfacedBytes :
    parseLine (renderLine zeroFrame.bytes) = some zeroFrame.bytes ∧
    parseLine (renderLine { zeroFrame with opcode := 0x80, protocolVersion := 0x7F, unused := 1 }.bytes) =
      some { zeroFrame with opcode := 0x80, protocolVersion := 0x7F, unused := 1 }.bytes ∧
    sumOf zeroFrame.bytes % 256 = 0 ∧
    sumOf { zeroFrame with opcode := 0x80, protocolVersion := 0x7F, unused := 1 }.bytes % 256 = 0 ∧
    unchecked.cfg.chken = false ∧
    ∀ i, i < 24 → i ≠ 1 → i ≠ 3 → i ≠ 15 → zeroFrame.bytes[i]? =
      ({ zeroFrame with opcode := 0x80, protocolVersion := 0x7F, unused := 1 } : StatusNotifyFrame).bytes[i]? := by decide
theorem witness_EveryHeaderSelectsOrRaises :
    (0x00#8).toNat % 16 = 0 ∧ 12 ≤ (0x0C#8).toNat % 16 ∧ (0x11#8).toNat / 16 ≠ 0 ∧
    ((0x01#8).toNat / 16 = 0 ∧ 1 ≤ (0x01#8).toNat % 16 ∧ (0x01#8).toNat % 16 ≤ 11 ∧
      (Request.mk 0x01 [.bytes []]).portTyped = true) ∧
    ((0x0B#8).toNat / 16 = 0 ∧ 1 ≤ (0x0B#8).toNat % 16 ∧ (0x0B#8).toNat % 16 ≤ 11 ∧
      (Request.mk 0x0B []).portTyped = true) := by decide
theorem witness_DecodeAndEncodeAgree :
    Instr.wellFormed (.enc off [] none) = true ∧ (encode (.enc off [] none)).wellFormed = true := by decide
/-- For the statements about every instruction that answers a next state. -/
theorem witness_exec_next :
    exec (.setadr 1) State.reset =
      .next (answered { State.reset with cmd := { State.reset.cmd with addr := 1 } } .ok .empty) := rfl
theorem witness_RefusalIsOnlyForNonNumericDigitalIntents :
    State.reset.refused = false ∧
    exec (.enc [.nan, .fin 0, .fin 0, .fin 0] off none) State.reset = .next { State.reset with refused := true } :=
  ⟨rfl, rfl⟩
/-- One lane with one request, and a request already refused. -/
def refusedState : State := { State.reset with refused := true, lanes := [[.request ⟨0x07, []⟩]] }
theorem witness_RefusedRunsShowNothing :
    refusedState.refused = true ∧ noReset refusedState ∧ Run refusedState (stateAfter (step refusedState)) := by
  refine ⟨rfl, by simp [noReset, refusedState], .more _ _ _ (.none _) ⟨0, by decide, rfl⟩⟩
/-- One lane with one request, and nothing refused. -/
def oneLane : State := { State.reset with lanes := [[.request ⟨0x07, []⟩]] }
theorem witness_UnrefusedRunsShowOneResponsePerRequest :
    noReset oneLane ∧ 0 ∈ readyLanes oneLane ∧ stepLane 0 oneLane = .next (stateAfter (stepLane 0 oneLane)) ∧
    (stateAfter (stepLane 0 oneLane)).refused = false ∧ Run oneLane (stateAfter (stepLane 0 oneLane)) := by
  refine ⟨by simp [noReset, oneLane], by decide, rfl, rfl, .more _ _ _ (.none _) ⟨0, by decide, rfl⟩⟩
theorem witness_OperationsReadAndWriteOnlyTheRegisters :
    State.reset.cmd = refusedState.cmd ∧ State.reset.cfg = refusedState.cfg ∧ State.reset.lqiCal = refusedState.lqiCal ∧
    exec .rdcfg State.reset = .next (answered State.reset .ok (.byte 1)) := ⟨rfl, rfl, rfl, rfl⟩
/-- Two lanes ready, the second with a reset after its request. -/
def twoLanes : State := { State.reset with lanes := [[.request ⟨0x07, []⟩], [.request ⟨0x06, []⟩, .reset]] }
theorem witness_AcceptTakesTheFrontOfOneLane :
    (acceptFrom 1 twoLanes).map Prod.fst = some (.request ⟨0x06, []⟩) ∧
    twoLanes.lanes[1]? = some [.request ⟨0x06, []⟩, .reset] ∧ acceptFrom 2 twoLanes = none := by decide
theorem witness_StepAcceptsSomeReadyLane :
    readyLanes twoLanes = [0, 1] ∧ readyLanes State.reset = [] ∧ step State.reset = .next State.reset := ⟨by decide, by decide, rfl⟩
/-- One lane whose first input is the reset, and one whose first input is a request with an illegal header. -/
def resetLane : State := { State.reset with lanes := [[.reset]] }
def illegalLane : State := { State.reset with lanes := [[.request ⟨0x0C, []⟩]] }
theorem witness_StepPerformsTheDecodedInstruction :
    (pickLane refusedState = some 0 ∧ refusedState.lanes[0]? = some [.request ⟨0x07, []⟩] ∧
      decode ⟨0x07, []⟩ = .ok .enccmd) ∧
    (pickLane resetLane = some 0 ∧ resetLane.lanes[0]? = some [.reset]) ∧
    (pickLane illegalLane = some 0 ∧ illegalLane.lanes[0]? = some [.request ⟨0x0C, []⟩] ∧
      decode ⟨0x0C, []⟩ = .error .illegalOperation) := by decide
theorem witness_PlacedTableWordIsPerformedNext :
    decodeTableWord 8 0x01 = some (.csum []) ∧ decodeTableWord 8 0x81 = some .frameStatusNotify := by decide
/-- For StepKeepsTheInvariant and EveryInterleavingKeepsTheInvariantAndCompletes. -/
theorem witness_invariant_and_step :
    refusedState.Inv ∧ step refusedState = .next (stateAfter (step refusedState)) ∧
    Run refusedState (stateAfter (step refusedState)) := by
  refine ⟨by decide, rfl, .more _ _ _ (.none _) ⟨0, by decide, rfl⟩⟩

end Sys2Proof.Tests
end

section
/-! PROOFS. What the response of an operation shows of the two states it stands between (60_exceptions.md R220), and
what RDCFG answers (41_envelope.md R131). -/

open Sys2Proof Sys2Proof.Machine Sys2Proof.Claims

namespace Sys2Proof.Proofs

/-- The statements' `answered` is the model's `answer`. -/
theorem answered_eq_answer (s : State) (c : ResponseCode) (p : Payload) : answered s c p = answer c p s := rfl

/-- R220: an answer adds one response to those already given. -/
theorem given_answer {s u : State} (h : u.responses = s.responses) (c : ResponseCode) (p : Payload) :
    given s (answer c p u) = [(c, p)] := by
  simp [given, h]

/-- R228: a refusal gives no response. -/
@[simp] theorem given_markRefused (s : State) : given s (markRefused s) = [] := by
  simp [given]

/-- The payload can be read off the state an answer leaves. -/
theorem answer_payload_inj {c : ResponseCode} {p q : Payload} {s : State}
    (h : answer c p s = answer c q s) : p = q := by
  simpa using congrArg State.responses h

/-- R131 -/
theorem exec_rdcfg (s : State) : exec .rdcfg s = .next (answered s .ok (.byte (readCfg s))) := rfl

/-- R29, R130: CFG reads as bit 0 of any byte whose bit 0 CHKEN holds. -/
theorem readCfg_eq_and_one {s : State} {v : Byte} (h : s.cfg.chken = v.getLsbD 0) : readCfg s = v &&& 0x01#8 := by
  apply BitVec.eq_of_getLsbD_eq
  intro i _
  rw [readCfg_getLsbD, BitVec.getLsbD_and, h]
  by_cases hi : i = 0
  · simp [hi]
  · simp [hi, BitVec.getLsbD_one]

/-- Settles O11: RDCFG answers `readCfg`, whose bits above 0 are clear, and WCFG leaves its operand's bit 0 in CHKEN. -/
theorem cfgReservedBitsStayZero : Obligations.CfgReservedBitsStayZero := by
  constructor
  · intro s b h i hi
    rw [exec_rdcfg, answered_eq_answer, answered_eq_answer] at h
    have hb : readCfg s = b := Payload.byte.inj (answer_payload_inj (Host.Outcome.next.inj h))
    have hi0 : i ≠ 0 := by omega
    simp [← hb, readCfg_getLsbD, hi0]
  · intro v s t h
    have ht : t = answer .ok .empty (writeCfg v s) := (respond_eq_next_iff _ _ _).mp h
    have hchken : t.cfg.chken = v.getLsbD 0 := by rw [ht, answer_cfg, writeCfg_chken]
    rw [exec_rdcfg, readCfg_eq_and_one hchken]

end Sys2Proof.Proofs
end

section
/-! PROOFS. How an operation can end, as a function of CMD, CFG and the parameter LQI_CAL alone (10_state.md R20).
`exec_hasEnding` is the one case analysis over the instructions; the frame and the determinism of every operation follow
from it. -/

open Sys2Proof Sys2Proof.Machine Sys2Proof.Claims

namespace Sys2Proof.Proofs

/-- R20: what an operation reads: the two registers and the parameter of R3. -/
structure SameRegisters (s s' : State) : Prop where
  cmd    : s.cmd = s'.cmd
  cfg    : s.cfg = s'.cfg
  lqiCal : s.lqiCal = s'.lqiCal

/-- R20: what an operation writes: one field of a register, or nothing. -/
inductive RegisterWrite where
  | nothing
  | addr (a : Byte)
  | digital (d : Quad Intent)
  | analog (a : Quad Intent)
  | cfg (v : Byte)

/-- The state after a register write. -/
def RegisterWrite.on : RegisterWrite → State → State
  | .nothing, s => s
  | .addr a, s => setAddr a s
  | .digital d, s => setDigital d s
  | .analog a, s => setAnalog a s
  | .cfg v, s => writeCfg v s

/-- R20: the operation each field is written by. -/
def RegisterWrite.AllowedFor (i : Instr) : RegisterWrite → Prop
  | .nothing => True
  | .addr _ => ∃ a, i = .setadr a
  | .digital _ => ∃ l, i = .setd l
  | .analog _ => ∃ l, i = .seta l
  | .cfg _ => ∃ v, i = .wcfg v

/-- R8, R220, R228: an operation ends with a register write and a response, or is refused; R140's "never reached" stops
the model. -/
inductive Ending where
  | answers (w : RegisterWrite) (code : ResponseCode) (payload : Payload)
  | refuses
  | stops

/-- What the ending makes of the state the operation was performed in. -/
def Ending.on : Ending → State → Result
  | .answers w code payload, s => .next (answer code payload (w.on s))
  | .refuses, s => .next (markRefused s)
  | .stops, _ => .fault .digitalLaneNeverReached

/-- The ending writes no field that is not the instruction's own. -/
def Ending.AllowedFor (i : Instr) : Ending → Prop
  | .answers w _ _ => w.AllowedFor i
  | .refuses => True
  | .stops => True

/-! ### A register write -/

namespace RegisterWrite

variable (w : RegisterWrite) (s : State)

@[simp] theorem on_lqiCal : (w.on s).lqiCal = s.lqiCal := by cases w <;> rfl
@[simp] theorem on_lanes : (w.on s).lanes = s.lanes := by cases w <;> rfl
@[simp] theorem on_accepts : (w.on s).accepts = s.accepts := by cases w <;> rfl
@[simp] theorem on_serving : (w.on s).serving = s.serving := by cases w <;> rfl
@[simp] theorem on_responses : (w.on s).responses = s.responses := by cases w <;> rfl

variable {w s} {i : Instr}

theorem AllowedFor.setadr_of_addr_ne (hw : w.AllowedFor i) (h : (w.on s).cmd.addr ≠ s.cmd.addr) :
    ∃ a, i = .setadr a := by
  cases w with
  | addr a => exact hw
  | nothing | digital | analog | cfg => exact absurd rfl h

theorem AllowedFor.setd_of_digital_ne (hw : w.AllowedFor i) (h : (w.on s).cmd.digital ≠ s.cmd.digital) :
    ∃ l, i = .setd l := by
  cases w with
  | digital d => exact hw
  | nothing | addr | analog | cfg => exact absurd rfl h

theorem AllowedFor.seta_of_analog_ne (hw : w.AllowedFor i) (h : (w.on s).cmd.analog ≠ s.cmd.analog) :
    ∃ l, i = .seta l := by
  cases w with
  | analog a => exact hw
  | nothing | addr | digital | cfg => exact absurd rfl h

theorem AllowedFor.wcfg_of_cfg_ne (hw : w.AllowedFor i) (h : (w.on s).cfg ≠ s.cfg) : ∃ v, i = .wcfg v := by
  cases w with
  | cfg v => exact hw
  | nothing | addr | digital | analog => exact absurd rfl h

/-- What a write leaves in the registers depends on the registers alone. -/
theorem on_sameRegisters {s' : State} (w : RegisterWrite) (h : SameRegisters s s') :
    SameRegisters (w.on s) (w.on s') := by
  obtain ⟨hcmd, hcfg, hcal⟩ := h
  cases w with
  | nothing => exact ⟨hcmd, hcfg, hcal⟩
  | addr a => exact ⟨by simp [on, setAddr, hcmd], hcfg, hcal⟩
  | digital d => exact ⟨by simp [on, setDigital, hcmd], hcfg, hcal⟩
  | analog a => exact ⟨by simp [on, setAnalog, hcmd], hcfg, hcal⟩
  | cfg v => exact ⟨hcmd, rfl, hcal⟩

end RegisterWrite

/-! ### Operations that end in one way -/

/-- In every state with the registers of s, the operation ends in the same way, one the instruction allows. -/
def HasEnding (i : Instr) (s : State) : Prop :=
  ∃ e : Ending, e.AllowedFor i ∧ ∀ s', SameRegisters s s' → exec i s' = e.on s'

section
variable {i : Instr} {s : State}

theorem HasEnding.of_answers (w : RegisterWrite) (c : ResponseCode) (p : Payload) (hw : w.AllowedFor i)
    (h : ∀ s', SameRegisters s s' → exec i s' = .next (answer c p (w.on s'))) : HasEnding i s :=
  ⟨.answers w c p, hw, h⟩

theorem HasEnding.of_respond (p : Payload) (h : ∀ s', SameRegisters s s' → exec i s' = respond p s') :
    HasEnding i s :=
  .of_answers .nothing .ok p trivial h

theorem HasEnding.of_raise (e : ErrorKind) (h : ∀ s', SameRegisters s s' → exec i s' = raise e s') :
    HasEnding i s :=
  .of_answers .nothing e.code .empty trivial h

theorem HasEnding.of_refuse (r : RefuseReason) (h : ∀ s', SameRegisters s s' → exec i s' = refuse r s') :
    HasEnding i s :=
  ⟨.refuses, trivial, h⟩

theorem HasEnding.of_respondFrame (addr : Byte) (d a : Quad Intent)
    (h : ∀ s', SameRegisters s s' → exec i s' = respondFrame addr d a s') : HasEnding i s := by
  cases hline : encodeFrame addr d a with
  | some line => exact .of_respond (.str line) fun s' hs => by rw [h s' hs, respondFrame, hline]
  | none => exact ⟨.stops, trivial, fun s' hs => by rw [h s' hs, respondFrame, hline]; rfl⟩

end

/-! ### What `exec` gives on each outcome of the operand checks -/

section
variable {l : List Intent} {d a : Quad Intent} (s : State)

theorem exec_setd_of_channels_none (hl : channels l = none) : exec (.setd l) s = raise .invalidChannelCount s := by
  simp [exec, execSetd, hl]

theorem exec_setd_of_admitted (hl : channels l = some d) (hd : admitAll d = true) :
    exec (.setd l) s = respond .empty (setDigital d s) := by
  simp [exec, execSetd, hl, hd]

theorem exec_setd_of_not_admitted (hl : channels l = some d) (hd : ¬ admitAll d = true) :
    exec (.setd l) s = refuse .digitalIntentNotNumeric s := by
  simp [exec, execSetd, hl, hd]

theorem exec_seta_of_channels_none (hl : channels l = none) : exec (.seta l) s = raise .invalidChannelCount s := by
  simp [exec, execSeta, hl]

theorem exec_seta_of_channels (hl : channels l = some a) : exec (.seta l) s = respond .empty (setAnalog a s) := by
  simp [exec, execSeta, hl]

variable {dl al : List Intent} (addr : Option Int)

theorem exec_enc_of_digital_none (hd : channels dl = none) :
    exec (.enc dl al addr) s = raise .invalidChannelCount s := by
  simp [exec, execEnc, hd]

theorem exec_enc_of_analog_none (hd : channels dl = some d) (ha : channels al = none) :
    exec (.enc dl al addr) s = raise .invalidChannelCount s := by
  simp [exec, execEnc, hd, ha]

theorem exec_enc_of_admitted (hd : channels dl = some d) (ha : channels al = some a) (hadmit : admitAll d = true) :
    exec (.enc dl al addr) s = respondFrame (addressOperand addr) d a s := by
  simp [exec, execEnc, hd, ha, hadmit]

theorem exec_enc_of_not_admitted (hd : channels dl = some d) (ha : channels al = some a)
    (hadmit : ¬ admitAll d = true) : exec (.enc dl al addr) s = refuse .digitalIntentNotNumeric s := by
  simp [exec, execEnc, hd, ha, hadmit]

variable {line : Str} {f : StatusNotifyFrame} {s}

theorem exec_dec_of_malformed (hp : parseStatusLine line = none) : exec (.dec line) s = raise .malformedFrame s := by
  simp [exec, execDec, hp]

theorem exec_dec_of_checkOK (hp : parseStatusLine line = some f) (hc : checkOK s.cfg.chken f = true) :
    exec (.dec line) s = respond (.status (statusRecord s.lqiCal f)) s := by
  simp [exec, execDec, hp, hc]

theorem exec_dec_of_mismatch (hp : parseStatusLine line = some f) (hc : ¬ checkOK s.cfg.chken f = true) :
    exec (.dec line) s = raise .checksumMismatch s := by
  simp [exec, execDec, hp, hc]

end

/-! ### The ending of each operation -/

theorem hasEnding_setd (l : List Intent) (s : State) : HasEnding (.setd l) s := by
  cases hl : channels l with
  | none => exact .of_raise .invalidChannelCount fun s' _ => exec_setd_of_channels_none s' hl
  | some d =>
    by_cases hd : admitAll d = true
    · exact .of_answers (.digital d) .ok .empty ⟨l, rfl⟩ fun s' _ => exec_setd_of_admitted s' hl hd
    · exact .of_refuse .digitalIntentNotNumeric fun s' _ => exec_setd_of_not_admitted s' hl hd

theorem hasEnding_seta (l : List Intent) (s : State) : HasEnding (.seta l) s := by
  cases hl : channels l with
  | none => exact .of_raise .invalidChannelCount fun s' _ => exec_seta_of_channels_none s' hl
  | some a => exact .of_answers (.analog a) .ok .empty ⟨l, rfl⟩ fun s' _ => exec_seta_of_channels s' hl

/-- R127: RDCMD reads CMD. -/
theorem hasEnding_rdcmd (s : State) : HasEnding .rdcmd s :=
  .of_respond (.command s.cmd.addr s.cmd.digital s.cmd.analog (readVersion s) (readOpcode s)) fun s' hs => by
    rw [hs.cmd]; rfl

/-- R149: ENCCMD reads CMD. -/
theorem hasEnding_enccmd (s : State) : HasEnding .enccmd s :=
  .of_respondFrame s.cmd.addr s.cmd.digital s.cmd.analog fun s' hs => by rw [hs.cmd]; rfl

/-- R150: ENC reads no register. -/
theorem hasEnding_enc (dl al : List Intent) (addr : Option Int) (s : State) : HasEnding (.enc dl al addr) s := by
  cases hd : channels dl with
  | none => exact .of_raise .invalidChannelCount fun s' _ => exec_enc_of_digital_none s' addr hd
  | some d =>
    cases ha : channels al with
    | none => exact .of_raise .invalidChannelCount fun s' _ => exec_enc_of_analog_none s' addr hd ha
    | some a =>
      by_cases hadmit : admitAll d = true
      · exact .of_respondFrame (addressOperand addr) d a fun s' _ => exec_enc_of_admitted s' addr hd ha hadmit
      · exact .of_refuse .digitalIntentNotNumeric fun s' _ => exec_enc_of_not_admitted s' addr hd ha hadmit

/-- R181: DEC reads CHKEN and the parameter. -/
theorem hasEnding_dec (line : Str) (s : State) : HasEnding (.dec line) s := by
  cases hp : parseStatusLine line with
  | none => exact .of_raise .malformedFrame fun s' _ => exec_dec_of_malformed hp
  | some f =>
    by_cases hc : checkOK s.cfg.chken f = true
    · exact .of_respond (.status (statusRecord s.lqiCal f)) fun s' hs => by
        rw [hs.lqiCal]; exact exec_dec_of_checkOK hp (hs.cfg ▸ hc)
    · exact .of_raise .checksumMismatch fun s' hs => exec_dec_of_mismatch hp (hs.cfg ▸ hc)

/-- R131: RDCFG reads CFG. -/
theorem hasEnding_rdcfg (s : State) : HasEnding .rdcfg s :=
  .of_respond (.byte (readCfg s)) fun s' hs => by rw [readCfg, hs.cfg]; rfl

/-- R20: every operation ends in a way that CMD, CFG and the parameter determine, and writes its own field alone. -/
theorem exec_hasEnding (i : Instr) (s : State) : HasEnding i s := by
  cases i with
  | csum bytes => exact .of_respond (.byte (checksumBytes bytes)) fun _ _ => rfl
  | hexb v => exact .of_respond (.str (toHexByte v)) fun _ _ => rfl
  | setd l => exact hasEnding_setd l s
  | seta l => exact hasEnding_seta l s
  | setadr a => exact .of_answers (.addr (byteOfInt a)) .ok .empty ⟨a, rfl⟩ fun _ _ => rfl
  | rdcmd => exact hasEnding_rdcmd s
  | enccmd => exact hasEnding_enccmd s
  | enc d a addr => exact hasEnding_enc d a addr s
  | dec line => exact hasEnding_dec line s
  | wcfg v => exact .of_answers (.cfg v) .ok .empty ⟨v, rfl⟩ fun _ _ => rfl
  | rdcfg => exact hasEnding_rdcfg s
  | frameChangeOutput => exact .of_raise .illegalOperation fun _ _ => rfl
  | frameStatusNotify => exact .of_raise .illegalOperation fun _ _ => rfl

/-- The next state of an operation: a register write and an answer, or the mark of a refusal; and it is the same write
and answer in every state with the same registers. -/
theorem exec_next_cases {i : Instr} {s t : State} (h : exec i s = .next t) :
    (∃ w c p, RegisterWrite.AllowedFor i w ∧ t = answer c p (w.on s) ∧
      ∀ s', SameRegisters s s' → exec i s' = .next (answer c p (w.on s'))) ∨
    (t = markRefused s ∧ ∀ s', SameRegisters s s' → exec i s' = .next (markRefused s')) := by
  obtain ⟨e, he, hexec⟩ := exec_hasEnding i s
  rw [hexec s ⟨rfl, rfl, rfl⟩] at h
  cases e with
  | answers w c p => exact .inl ⟨w, c, p, he, (Host.Outcome.next.inj h).symm, hexec⟩
  | refuses => exact .inr ⟨(Host.Outcome.next.inj h).symm, hexec⟩
  | stops => cases h

/-- R20: each register field is written by its own operation alone, and nothing writes the parameter or the port. -/
theorem exec_frame {i : Instr} {s t : State} (h : exec i s = .next t) :
    (t.cmd.addr ≠ s.cmd.addr → ∃ a, i = .setadr a) ∧
    (t.cmd.digital ≠ s.cmd.digital → ∃ l, i = .setd l) ∧
    (t.cmd.analog ≠ s.cmd.analog → ∃ l, i = .seta l) ∧
    (t.cfg ≠ s.cfg → ∃ v, i = .wcfg v) ∧
    t.lqiCal = s.lqiCal ∧ t.lanes = s.lanes ∧ t.accepts = s.accepts ∧ t.serving = s.serving := by
  obtain ⟨w, c, p, hw, rfl, -⟩ | ⟨rfl, -⟩ := exec_next_cases h
  · exact ⟨hw.setadr_of_addr_ne, hw.setd_of_digital_ne, hw.seta_of_analog_ne, hw.wcfg_of_cfg_ne,
      w.on_lqiCal s, w.on_lanes s, w.on_accepts s, w.on_serving s⟩
  · simp

/-- R20: CMD, CFG and the parameter determine the response and the CMD and CFG an operation leaves. -/
theorem exec_deterministic {i : Instr} {s s' t : State} (hs : SameRegisters s s') (h : exec i s = .next t) :
    ∃ t', exec i s' = .next t' ∧ t.cmd = t'.cmd ∧ t.cfg = t'.cfg ∧ given s t = given s' t' := by
  obtain ⟨w, c, p, -, rfl, hexec⟩ | ⟨rfl, hexec⟩ := exec_next_cases h
  · have hw := w.on_sameRegisters hs
    refine ⟨_, hexec s' hs, hw.cmd, hw.cfg, ?_⟩
    rw [given_answer (w.on_responses s), given_answer (w.on_responses s')]
  · exact ⟨_, hexec s' hs, hs.cmd, hs.cfg, by simp⟩

/-- Settles O47: the frame and the determinism that `exec_next_cases` gives every operation. -/
theorem operationsReadAndWriteOnlyTheRegisters : Obligations.OperationsReadAndWriteOnlyTheRegisters :=
  ⟨fun _ _ _ h => exec_frame h, fun _ _ _ _ hcmd hcfg hcal h => exec_deterministic ⟨hcmd, hcfg, hcal⟩ h⟩

end Sys2Proof.Proofs
end

section
/-! PROOFS. What the request decoder gives under every header (30_encoding.md R60 to R62, R222). -/

open Sys2Proof Sys2Proof.Machine Sys2Proof.Claims

namespace Sys2Proof.Proofs

/-! ### The two fields of a header -/

/-- R60: `OP` is the header's low hex digit. -/
theorem opField_toNat (h : Byte) : (opField h).toNat = h.toNat % 16 := by
  simp [opField]

/-- R60: `H[7:4]` is the header's high hex digit. -/
theorem zeroField_eq_zero_iff (h : Byte) : zeroField h = 0#4 ↔ h.toNat / 16 = 0 := by
  have hlt := h.isLt
  have hval : (zeroField h).toNat = h.toNat / 16 := by
    simp only [zeroField, BitVec.extractLsb'_toNat, Nat.shiftRight_eq_div_pow]
    omega
  rw [← BitVec.toNat_inj, hval]
  rfl

/-- R60: a header whose high digit is 0 is its `OP`. -/
theorem ofNat_opField {h : Byte} (hz : zeroField h = 0#4) : BitVec.ofNat 8 (opField h).toNat = h := by
  have hlt := h.isLt
  have hhigh := (zeroField_eq_zero_iff h).mp hz
  apply BitVec.eq_of_toNat_eq
  rw [BitVec.toNat_ofNat, opField_toNat]
  omega

/-! ### Headers that select no operation -/

/-- R62: the reserved codes. -/
theorem operandTypes_eq_none_iff (op : Nat) : operandTypes op = none ↔ op = 0 ∨ 12 ≤ op := by
  unfold operandTypes
  split
  case h_12 =>
    simp only [imp_false] at *
    simp only [true_iff]
    omega
  all_goals simp

/-- R61: a reserved code is illegal whatever the operands are. -/
theorem decodeOp_of_operandTypes_none {op : Nat} (h : operandTypes op = none) (l : List Operand) :
    decodeOp op l = .error .illegalOperation := by
  unfold operandTypes at h
  split at h
  case h_12 => simp [decodeOp]
  all_goals cases h

theorem headerOperandTypes_of_zeroField {h : Byte} (hz : zeroField h = 0#4) :
    headerOperandTypes h = operandTypes (opField h).toNat := if_pos hz

theorem headerOperandTypes_of_zeroField_ne {h : Byte} (hz : zeroField h ≠ 0#4) : headerOperandTypes h = none :=
  if_neg hz

/-- R61: the headers that select no operation. -/
theorem headerOperandTypes_eq_none_iff (h : Byte) :
    headerOperandTypes h = none ↔ h.toNat / 16 ≠ 0 ∨ h.toNat % 16 = 0 ∨ 12 ≤ h.toNat % 16 := by
  by_cases hz : zeroField h = 0#4
  · rw [headerOperandTypes_of_zeroField hz, operandTypes_eq_none_iff, opField_toNat]
    simp [(zeroField_eq_zero_iff h).mp hz]
  · simp [headerOperandTypes_of_zeroField_ne hz, mt (zeroField_eq_zero_iff h).mpr hz]

theorem decode_of_zeroField {r : Request} (hz : zeroField r.header = 0#4) :
    decode r = decodeOp (opField r.header).toNat r.operands := if_pos hz

/-- R61: with `H[7:4] ≠ 0` the decoder finds one of the table's wire-frame rows, or nothing. -/
theorem decode_of_zeroField_ne {r : Request} (hz : zeroField r.header ≠ 0#4) :
    decode r = .ok .frameChangeOutput ∨ decode r = .ok .frameStatusNotify ∨ decode r = .error .illegalOperation := by
  unfold decode
  rw [if_neg hz]
  split
  · exact .inl rfl
  · split
    · exact .inr (.inl rfl)
    · exact .inr (.inr rfl)

/-! ### Headers that select an operation -/

section
variable {o : Operand}

theorem type_eq_byte_iff : o.type = .byte ↔ ∃ v, o = .byte v := by cases o <;> simp [Operand.type]
theorem type_eq_int_iff : o.type = .int ↔ ∃ v, o = .int v := by cases o <;> simp [Operand.type]
theorem type_eq_optInt_iff : o.type = .optInt ↔ ∃ v, o = .optInt v := by cases o <;> simp [Operand.type]
theorem type_eq_bytes_iff : o.type = .bytes ↔ ∃ l, o = .bytes l := by cases o <;> simp [Operand.type]
theorem type_eq_intents_iff : o.type = .intents ↔ ∃ l, o = .intents l := by cases o <;> simp [Operand.type]
theorem type_eq_str_iff : o.type = .str ↔ ∃ s, o = .str s := by cases o <;> simp [Operand.type]

end

/-- R62: a record of a code's types decodes to the operation that is encoded with that code and that record. -/
theorem decodeOp_of_operandTypes {op : Nat} {l : List Operand} (h : operandTypes op = some (l.map Operand.type)) :
    ∃ i : Instr, i.isOperation = true ∧ decodeOp op l = .ok i ∧ encode i = ⟨BitVec.ofNat 8 op, l⟩ := by
  rw [eq_comm] at h
  unfold operandTypes at h
  split at h <;>
    simp only [Option.some.injEq, reduceCtorEq, List.map_eq_cons_iff, List.map_eq_nil_iff, type_eq_byte_iff,
      type_eq_int_iff, type_eq_optInt_iff, type_eq_bytes_iff, type_eq_intents_iff, type_eq_str_iff] at h
  · obtain ⟨_, _, rfl, ⟨b, rfl⟩, rfl⟩ := h
    exact ⟨.csum b, rfl, rfl, rfl⟩
  · obtain ⟨_, _, rfl, ⟨v, rfl⟩, rfl⟩ := h
    exact ⟨.hexb v, rfl, rfl, rfl⟩
  · obtain ⟨_, _, rfl, ⟨d, rfl⟩, rfl⟩ := h
    exact ⟨.setd d, rfl, rfl, rfl⟩
  · obtain ⟨_, _, rfl, ⟨a, rfl⟩, rfl⟩ := h
    exact ⟨.seta a, rfl, rfl, rfl⟩
  · obtain ⟨_, _, rfl, ⟨a, rfl⟩, rfl⟩ := h
    exact ⟨.setadr a, rfl, rfl, rfl⟩
  · subst h
    exact ⟨.rdcmd, rfl, rfl, rfl⟩
  · subst h
    exact ⟨.enccmd, rfl, rfl, rfl⟩
  · obtain ⟨_, _, rfl, ⟨d, rfl⟩, _, _, rfl, ⟨a, rfl⟩, _, _, rfl, ⟨addr, rfl⟩, rfl⟩ := h
    exact ⟨.enc d a addr, rfl, rfl, rfl⟩
  · obtain ⟨_, _, rfl, ⟨line, rfl⟩, rfl⟩ := h
    exact ⟨.dec line, rfl, rfl, rfl⟩
  · obtain ⟨_, _, rfl, ⟨v, rfl⟩, rfl⟩ := h
    exact ⟨.wcfg v, rfl, rfl, rfl⟩
  · subst h
    exact ⟨.rdcfg, rfl, rfl, rfl⟩

/-- R60 to R62: a well-formed request decodes to the operation it is the encoding of. -/
theorem decode_of_wellFormed {r : Request} (h : r.wellFormed = true) :
    ∃ i : Instr, i.isOperation = true ∧ decode r = .ok i ∧ encode i = r := by
  have htypes : headerOperandTypes r.header = some (r.operands.map Operand.type) := beq_iff_eq.mp h
  by_cases hz : zeroField r.header = 0#4
  · rw [headerOperandTypes_of_zeroField hz] at htypes
    obtain ⟨i, hi, hdecode, hencode⟩ := decodeOp_of_operandTypes htypes
    rw [ofNat_opField hz] at hencode
    exact ⟨i, hi, (decode_of_zeroField hz).trans hdecode, hencode⟩
  · simp [headerOperandTypes_of_zeroField_ne hz] at htypes

/-! ### Performing a request -/

section
variable {r : Request} (s : State)

theorem performRequest_of_decode_ok {i : Instr} (h : decode r = .ok i) : performRequest r s = exec i s := by
  simp [performRequest, h]

theorem performRequest_of_decode_illegal (h : decode r = .error .illegalOperation) :
    performRequest r s = raise .illegalOperation s := by
  simp [performRequest, h]

/-- R61, R222: a request whose header selects no operation raises IllegalOperation. -/
theorem performRequest_of_headerOperandTypes_none (h : headerOperandTypes r.header = none) :
    performRequest r s = raise .illegalOperation s := by
  by_cases hz : zeroField r.header = 0#4
  · rw [headerOperandTypes_of_zeroField hz] at h
    exact performRequest_of_decode_illegal s
      ((decode_of_zeroField hz).trans (decodeOp_of_operandTypes_none h r.operands))
  · obtain hd | hd | hd := decode_of_zeroField_ne hz
    · exact performRequest_of_decode_ok s hd
    · exact performRequest_of_decode_ok s hd
    · exact performRequest_of_decode_illegal s hd

end

/-- R63: under a header that selects an operation the port carries well-formed requests alone. -/
theorem wellFormed_of_portTyped {r : Request} (htyped : r.portTyped = true)
    (h : headerOperandTypes r.header ≠ none) : r.wellFormed = true := by
  simpa [Request.portTyped, h] using htyped

/-- Settles O38: the headers that raise are those with no operand types; under the others a typed record is well formed,
so it decodes to the operation it encodes. -/
theorem everyHeaderSelectsOrRaises : Obligations.EveryHeaderSelectsOrRaises := by
  intro r s
  constructor
  · intro hillegal
    exact performRequest_of_headerOperandTypes_none s ((headerOperandTypes_eq_none_iff r.header).mpr hillegal)
  · intro hhigh hlow hle htyped
    have hselects : headerOperandTypes r.header ≠ none := by
      rw [Ne, headerOperandTypes_eq_none_iff]
      omega
    obtain ⟨i, hi, hdecode, hencode⟩ := decode_of_wellFormed (wellFormed_of_portTyped htyped hselects)
    exact ⟨i, hi, hencode, performRequest_of_decode_ok s hdecode⟩

end Sys2Proof.Proofs
end

section
/-! PROOFS. What DEC reads of a status line (30_encoding.md R74, R76): the bytes of a parsed line, when the checksum check
passes, and the bytes no field of the result comes from. -/

open Sys2Proof Sys2Proof.Machine Sys2Proof.Claims

namespace Sys2Proof.Proofs

/-! ### The frame of a parsed line -/

/-- R203: one byte for each pair of digits. -/
theorem length_of_parsePairs : ∀ {s : Str} {b : List Byte}, parsePairs s = some b → s.length = 2 * b.length
  | [], _, h => by
    cases h
    rfl
  | [_], _, h => by cases h
  | _ :: _ :: rest, _, h => by
    rw [parsePairs] at h
    split at h
    · next hrest =>
      cases h
      have ih := length_of_parsePairs hrest
      simp only [List.length_cons, ih]
      omega
    · cases h

/-- R203: a line that parses holds 24 bytes. -/
theorem length_of_parseLine {line : Str} {b : List Byte} (h : parseLine line = some b) : b.length = 24 := by
  simp only [parseLine, Option.ite_none_right_eq_some] at h
  obtain ⟨hlen, hpairs⟩ := h
  have := length_of_parsePairs hpairs
  omega

/-- R74, R203: the bytes of a line that parses are those of the frame DEC reads. -/
theorem parseStatusLine_of_parseLine {line : Str} {b : List Byte} (h : parseLine line = some b) :
    ∃ f : StatusNotifyFrame, parseStatusLine line = some f ∧ f.bytes = b := by
  obtain ⟨f, hf⟩ := statusNotifyOfBytes_isSome b (length_of_parseLine h)
  exact ⟨f, by rw [parseStatusLine, h]; exact hf, bytes_of_statusNotifyOfBytes b f hf⟩

/-! ### The checksum check -/

theorem sum_map_intOfByte (b : List Byte) : (b.map intOfByte).sum = (sumOf b : Int) := by
  rw [sumOf, Nat.cast_list_sum, List.map_map]
  rfl

/-- R100: the checksum is the one byte that brings the sum to 0 mod 256. -/
theorem checksumBytes_eq_iff (b : List Byte) (c : Byte) : checksumBytes b = c ↔ sumOf (b ++ [c]) % 256 = 0 := by
  have hsum : sumOf (b ++ [c]) = sumOf b + c.toNat := by simp [sumOf]
  have hvalue : ((checksumBytes b).toNat : Int) = (256 - (sumOf b : Int) % 256) % 256 := by
    rw [checksumBytes, checksum, byteOfInt_toNat, sum_map_intOfByte]
  have hc := c.isLt
  rw [← BitVec.toNat_inj, hsum]
  omega

/-- R180: a frame passes with CHKEN clear, or with a sum of 0 mod 256. -/
theorem checkOK_iff (chken : Bool) (f : StatusNotifyFrame) :
    checkOK chken f = true ↔ chken = false ∨ sumOf f.bytes % 256 = 0 := by
  rw [checkOK, Bool.or_eq_true, Bool.not_eq_true', beq_iff_eq, checksumBytes_eq_iff, StatusNotifyFrame.bytes]

/-! ### The bytes DEC reads -/

/-- A frame is known by its bytes. -/
theorem bytes_injective : Function.Injective StatusNotifyFrame.bytes :=
  .of_comp (f := statusNotifyOfBytes) fun f g h => by
    simpa only [Function.comp_apply, statusNotifyOfBytes_bytes, Option.some.injEq] using h

/-- R76: the frame with other values in the bytes that DEC does not surface: 1, 3 and 15. -/
def withUnsurfaced (opcode version unused : Byte) (f : StatusNotifyFrame) : StatusNotifyFrame :=
  { f with opcode := opcode, protocolVersion := version, unused := unused }

theorem withUnsurfaced_bytes (opcode version unused : Byte) (f : StatusNotifyFrame) :
    (withUnsurfaced opcode version unused f).bytes = ((f.bytes.set 1 opcode).set 3 version).set 15 unused := rfl

/-- R76: no field of the status record comes from bytes 1, 3 and 15. -/
theorem statusRecord_withUnsurfaced (cal : Config.LqiCal) (opcode version unused : Byte) (f : StatusNotifyFrame) :
    statusRecord cal (withUnsurfaced opcode version unused f) = statusRecord cal f := rfl

theorem eq_withUnsurfaced_of_bytes_agree {f g : StatusNotifyFrame}
    (h : ∀ i, i ≠ 1 → i ≠ 3 → i ≠ 15 → f.bytes[i]? = g.bytes[i]?) :
    g = withUnsurfaced g.opcode g.protocolVersion g.unused f := by
  apply bytes_injective
  apply List.ext_getElem?
  intro i
  by_cases h1 : i = 1
  · subst h1; rfl
  by_cases h3 : i = 3
  · subst h3; rfl
  by_cases h15 : i = 15
  · subst h15; rfl
  rw [withUnsurfaced_bytes, List.getElem?_set_ne (Ne.symm h15), List.getElem?_set_ne (Ne.symm h3),
    List.getElem?_set_ne (Ne.symm h1), h i h1 h3 h15]

/-- R76: frames whose bytes agree except at 1, 3 and 15 have the same status record. -/
theorem statusRecord_eq_of_bytes_agree {f g : StatusNotifyFrame} (cal : Config.LqiCal)
    (h : ∀ i, i ≠ 1 → i ≠ 3 → i ≠ 15 → f.bytes[i]? = g.bytes[i]?) : statusRecord cal f = statusRecord cal g := by
  rw [eq_withUnsurfaced_of_bytes_agree h, statusRecord_withUnsurfaced]

/-- Settles O36: both frames pass the checksum check, and their status records are the same. -/
theorem decDoesNotReadUnsurfacedBytes : Obligations.DecDoesNotReadUnsurfacedBytes := by
  intro line line' b b' s hline hline' hsums hagree
  obtain ⟨f, hf, rfl⟩ := parseStatusLine_of_parseLine hline
  obtain ⟨g, hg, rfl⟩ := parseStatusLine_of_parseLine hline'
  have hfcheck : checkOK s.cfg.chken f = true := (checkOK_iff _ f).mpr (hsums.imp_right And.left)
  have hgcheck : checkOK s.cfg.chken g = true := (checkOK_iff _ g).mpr (hsums.imp_right And.right)
  calc exec (.dec line) s
      = respond (.status (statusRecord s.lqiCal f)) s := exec_dec_of_checkOK hf hfcheck
    _ = respond (.status (statusRecord s.lqiCal g)) s := by rw [statusRecord_eq_of_bytes_agree s.lqiCal hagree]
    _ = exec (.dec line') s := (exec_dec_of_checkOK hg hgcheck).symm

end Sys2Proof.Proofs
end

section
/-! PROOFS. What CSUM and HEXB answer (40_checksum.md R100 to R103). -/

open Sys2Proof Sys2Proof.Machine Sys2Proof.Claims

namespace Sys2Proof.Proofs

/-! ### Decoding -/

/-- R60, R61: a header below 16 is the code it selects. -/
theorem decode_of_header_lt {r : Request} (h : r.header.toNat < 16) :
    decode r = decodeOp r.header.toNat r.operands := by
  have hz : zeroField r.header = 0#4 := (zeroField_eq_zero_iff _).mpr (Nat.div_eq_of_lt h)
  rw [decode_of_zeroField hz, opField_toNat, Nat.mod_eq_of_lt h]

/-! ### The checksum engine -/

/-- R62: code 1. -/
theorem decode_csum (bytes : List Byte) : decode ⟨0x01#8, [.bytes bytes]⟩ = .ok (.csum bytes) :=
  decode_of_header_lt (show 1 < 16 by decide)

/-- R102 -/
theorem exec_csum (bytes : List Byte) (s : State) :
    exec (.csum bytes) s = .next (answered s .ok (.byte (checksumBytes bytes))) := rfl

/-- R100 on any integers. -/
theorem checksum_toNat (b : List Int) : ((checksum b).toNat : Int) = (256 - b.sum % 256) % 256 :=
  byteOfInt_toNat _

/-- R100 on bytes, in natural numbers: the difference does not go below 0. -/
theorem checksumBytes_toNat (b : List Byte) : (checksumBytes b).toNat = (256 - sumOf b % 256) % 256 := by
  have hvalue := checksum_toNat (b.map intOfByte)
  rw [sum_map_intOfByte] at hvalue
  rw [checksumBytes]
  omega

/-- Settles O1: CSUM answers `checksumBytes`, whose value is R100's formula on the sum of the bytes. -/
theorem csumRespondsTheChecksum : Obligations.CsumRespondsTheChecksum := fun bytes s =>
  ⟨decode_csum bytes, checksumBytes bytes, exec_csum bytes s, checksumBytes_toNat bytes⟩

/-- Settles O2: the defining property follows from the checksum's value mod 256. -/
theorem checksumMakesTheSumZero : Obligations.ChecksumMakesTheSumZero := by
  refine ⟨rfl, fun b => ⟨checksum_toNat b, ?_⟩⟩
  rw [checksum_toNat]
  omega

/-! ### The hex-byte encoder -/

/-- R62: code 2. -/
theorem decode_hexb (v : Int) : decode ⟨0x02#8, [.int v]⟩ = .ok (.hexb v) :=
  decode_of_header_lt (show 2 < 16 by decide)

/-- R103 -/
theorem exec_hexb (v : Int) (s : State) : exec (.hexb v) s = .next (answered s .ok (.str (toHexByte v))) := rfl

/-- R9: `hexDigit` gives the uppercase digits. -/
theorem upperHex_getElem? {n : Nat} (h : n < 16) : upperHex[n]? = some (hexDigit n) := by
  have hdigits : ∀ m : Fin 16, upperHex[m.val]? = some (hexDigit m) := by decide
  exact hdigits ⟨n, h⟩

/-- Settles O3: the digits are those of the quotient and the remainder of `v mod 256` by 16, both below 16. -/
theorem hexbRespondsTwoUppercaseDigits : Obligations.HexbRespondsTwoUppercaseDigits := by
  intro v s
  have hhi : (v % 256).toNat / 16 < 16 := by omega
  have hlo : (v % 256).toNat % 16 < 16 := by omega
  have hvalue : ((16 * ((v % 256).toNat / 16) + (v % 256).toNat % 16 : Nat) : Int) = v % 256 := by omega
  exact ⟨decode_hexb v, _, _, _, _, upperHex_getElem? hhi, upperHex_getElem? hlo, hvalue, exec_hexb v s⟩

end Sys2Proof.Proofs
end

section
/-! PROOFS. What SETADR, SETD, SETA, RDCMD, WCFG and RDCFG decode from and do (41_envelope.md R122 to R131). -/

open Sys2Proof Sys2Proof.Machine Sys2Proof.Claims

namespace Sys2Proof.Proofs

/-! ### The operand checks on a list of intents -/

/-- R123: there are no channels exactly when the count is wrong. -/
theorem channels_eq_none_iff_length_ne (l : List Intent) : channels l = none ↔ l.length ≠ 4 := by
  rw [channels_eq_none_iff, countOK, beq_eq_false_iff_ne]

/-- R123: a list of four has its four channels. -/
theorem exists_channels_of_length_eq {l : List Intent} (h : l.length = 4) : ∃ q, channels l = some q :=
  Option.ne_none_iff_exists'.mp fun hnone => (channels_eq_none_iff_length_ne l).mp hnone h

/-- R124: the digital check on the channels is the statements' own on the list. -/
theorem admitAll_iff_not_notNumeric {l : List Intent} {q : Quad Intent} (h : channels l = some q) :
    admitAll q = true ↔ ¬ notNumeric l := by
  rw [admitAll_iff, (channels_eq_some_iff l q).mp h, notNumeric, not_or]

/-! ### SETD and SETA -/

/-- R62: code 3. -/
theorem decode_setd (l : List Intent) : decode ⟨0x03#8, [.intents l]⟩ = .ok (.setd l) :=
  decode_of_header_lt (show 3 < 16 by decide)

/-- R62: code 4. -/
theorem decode_seta (l : List Intent) : decode ⟨0x04#8, [.intents l]⟩ = .ok (.seta l) :=
  decode_of_header_lt (show 4 < 16 by decide)

/-- Settles O6: the three clauses are the three outcomes of the checks of R123 and R124 on the list. -/
theorem setdWritesAllFourOrNone : Obligations.SetdWritesAllFourOrNone := by
  intro l s
  refine ⟨decode_setd l, fun hcount => ?_, fun hcount hbad => ?_, ?_⟩
  · exact exec_setd_of_channels_none s ((channels_eq_none_iff_length_ne l).mpr hcount)
  · obtain ⟨q, hq⟩ := exists_channels_of_length_eq hcount
    have hnot : ¬ admitAll q = true := fun hadmit => (admitAll_iff_not_notNumeric hq).mp hadmit hbad
    exact exec_setd_of_not_admitted s hq hnot
  · rintro x0 x1 x2 x3 rfl hgood
    have hq : channels [x0, x1, x2, x3] = some ⟨x0, x1, x2, x3⟩ := rfl
    exact exec_setd_of_admitted s hq ((admitAll_iff_not_notNumeric hq).mpr hgood)

/-- Settles O7: the count is SETA's one check. -/
theorem setaWritesAllFourOrNone : Obligations.SetaWritesAllFourOrNone := by
  intro l s
  refine ⟨decode_seta l, fun hcount => ?_, ?_⟩
  · exact exec_seta_of_channels_none s ((channels_eq_none_iff_length_ne l).mpr hcount)
  · rintro x0 x1 x2 x3 rfl
    exact exec_seta_of_channels s rfl

/-! ### SETADR and RDCMD -/

/-- R62: code 5. -/
theorem decode_setadr (a : Int) : decode ⟨0x05#8, [.int a]⟩ = .ok (.setadr a) :=
  decode_of_header_lt (show 5 < 16 by decide)

/-- R122 -/
theorem exec_setadr (a : Int) (s : State) :
    exec (.setadr a) s = .next (answered (setAddr (byteOfInt a) s) .ok .empty) := rfl

/-- Settles O5: the stored byte is `byteOfInt a`, whose value is `a mod 256`. -/
theorem setadrStoresAddressModulo256 : Obligations.SetadrStoresAddressModulo256 := fun a s =>
  ⟨decode_setadr a, byteOfInt a, byteOfInt_toNat a, exec_setadr a s⟩

/-- R62: code 6. -/
theorem decode_rdcmd : decode ⟨0x06#8, []⟩ = .ok .rdcmd :=
  decode_of_header_lt (show 6 < 16 by decide)

/-- R127, R27: the hardwired fields are the same in every state. -/
theorem exec_rdcmd (s : State) :
    exec .rdcmd s = .next (answered s .ok (.command s.cmd.addr s.cmd.digital s.cmd.analog 0x01#8 0x80#8)) := rfl

/-- Settles O8, by what RDCMD decodes from and answers. -/
theorem rdcmdReadsTheCommandRegister : Obligations.RdcmdReadsTheCommandRegister := fun s =>
  ⟨decode_rdcmd, exec_rdcmd s⟩

/-! ### WCFG and RDCFG -/

/-- R62: code 10. -/
theorem decode_wcfg (v : Byte) : decode ⟨0x0A#8, [.byte v]⟩ = .ok (.wcfg v) :=
  decode_of_header_lt (show 10 < 16 by decide)

/-- R130 -/
theorem exec_wcfg (v : Byte) (s : State) : exec (.wcfg v) s = .next (answered (writeCfg v s) .ok .empty) := rfl

/-- R5, R130: bit 0 of the byte written is its parity. -/
theorem writeCfg_eq_parity (v : Byte) (s : State) :
    writeCfg v s = { s with cfg := { chken := decide (v.toNat % 2 = 1) } } := by
  have hbit : v.getLsbD 0 = decide (v.toNat % 2 = 1) := Nat.testBit_zero _
  rw [writeCfg, hbit]

/-- Settles O9: WCFG stores its operand's bit 0, which is its parity. -/
theorem wcfgWritesBitZeroToChken : Obligations.WcfgWritesBitZeroToChken := by
  intro v s
  rw [← writeCfg_eq_parity]
  exact ⟨decode_wcfg v, exec_wcfg v s⟩

/-- R62: code 11. -/
theorem decode_rdcfg : decode ⟨0x0B#8, []⟩ = .ok .rdcfg :=
  decode_of_header_lt (show 11 < 16 by decide)

/-- Settles O10: RDCFG answers `readCfg`, whose bit 0 is CHKEN and whose other bits are clear. -/
theorem rdcfgReadsChkenInBitZero : Obligations.RdcfgReadsChkenInBitZero := by
  refine fun s => ⟨decode_rdcfg, readCfg s, exec_rdcfg s, ?_, fun i hi => ?_⟩
  · rw [readCfg_getLsbD, decide_eq_true rfl, Bool.true_and]
  · rw [readCfg_getLsbD, decide_eq_false (Nat.one_le_iff_ne_zero.mp hi), Bool.false_and]

end Sys2Proof.Proofs
end

section
/-! PROOFS. What the bit-packer makes of one intent (42_packer.md R140 to R142): its digital lane, the bits the four
lanes take in the two bytes, and its PWM pair. -/

open Sys2Proof Sys2Proof.Machine Sys2Proof.Claims

namespace Sys2Proof.Proofs

/-! ### The digital lane of an intent -/

/-- R140: a negative intent is excluded. -/
theorem digitalLane_fin_of_neg {q : Rat} (h : q < 0) : digitalLane (.fin q) = some (false, false) := by
  simp [digitalLane, h]

/-- R7, R140: a non-negative intent is controlled, and its level is the parity of its floor. -/
theorem digitalLane_fin_of_nonneg {q : Rat} (h : 0 ≤ q) :
    digitalLane (.fin q) = some (true, floorRat q % 2 == 1) := by
  simp [digitalLane, truncRat, h, not_lt.mpr h]

/-- R7: `floorRat` is the library's floor. -/
theorem floorRat_eq_floor (q : Rat) : floorRat q = ⌊q⌋ := rfl

/-- R7: the bounds pin the floor down. -/
theorem floorRat_eq_natCast {q : Rat} {n : Nat} (hle : (n : Rat) ≤ q) (hlt : q < (n : Rat) + 1) : floorRat q = n := by
  rw [floorRat_eq_floor, Int.floor_eq_iff]
  exact ⟨hle, hlt⟩

/-- R140: only a controlled lane has its level set. -/
theorem mask_of_level {x : Intent} {m : Bool} (h : digitalLane x = some (m, true)) : m = true := by
  cases x with
  | fin q =>
    by_cases hq : q < 0
    · simp [digitalLane_fin_of_neg hq] at h
    · rw [digitalLane_fin_of_nonneg (not_lt.mp hq), Option.some.injEq, Prod.mk.injEq] at h
      exact h.1.symm
  | posInf | negInf | nan => cases h

/-- Settles O14: the sign of q chooses the mask, and the floor that the bounds name has the level's parity. -/
theorem digitalLaneIsMaskAndParity : Obligations.DigitalLaneIsMaskAndParity := by
  refine ⟨rfl, rfl, rfl, fun q hq => digitalLane_fin_of_neg hq, fun q n hle hlt => ?_⟩
  have hparity : ((n : Int) % 2 == 1) = decide (n % 2 = 1) := decide_eq_decide.mpr (by omega)
  rw [digitalLane_fin_of_nonneg (n.cast_nonneg.trans hle), floorRat_eq_natCast hle hlt, hparity]

/-! ### The bits of the four lanes -/

section
variable {d : Quad Intent} {levels mask : Byte}

theorem exists_packDigital_of_admitAll (h : admitAll d = true) :
    ∃ levels mask, packDigital d = some (levels, mask) := by
  rw [← packDigital_isSome, Option.isSome_iff_exists] at h
  obtain ⟨⟨levels, mask⟩, hpack⟩ := h
  exact ⟨levels, mask, hpack⟩

/-- R43, R141: bit i of the two bytes is lane i's. -/
theorem digitalLane_of_packDigital (h : packDigital d = some (levels, mask)) {i : Nat} {x : Intent}
    (hx : (quadList d)[i]? = some x) : digitalLane x = some (mask.getLsbD i, levels.getLsbD i) := by
  obtain ⟨m0, l0, m1, l1, m2, l2, m3, l3, h0, h1, h2, h3, rfl, rfl⟩ := (packDigital_eq_some_iff _ _ _).mp h
  rw [laneBits_getLsbD, laneBits_getLsbD]
  match i, hx with
  | 0, rfl => exact h0
  | 1, rfl => exact h1
  | 2, rfl => exact h2
  | 3, rfl => exact h3

/-- R141: bits 7:4 of the two bytes are 0. -/
theorem getLsbD_of_packDigital (h : packDigital d = some (levels, mask)) {i : Nat} (hi : 4 ≤ i) :
    mask.getLsbD i = false ∧ levels.getLsbD i = false := by
  obtain ⟨_, _, _, _, _, _, _, _, -, -, -, -, rfl, rfl⟩ := (packDigital_eq_some_iff _ _ _).mp h
  simp [laneBits_getLsbD, hi]

/-- R141: a set level bit is a lane's, so that lane is controlled. -/
theorem mask_of_level_of_packDigital (h : packDigital d = some (levels, mask)) {i : Nat}
    (hlevel : levels.getLsbD i = true) : mask.getLsbD i = true := by
  have hi : i < (quadList d).length := by
    by_contra hge
    have hzero := (getLsbD_of_packDigital h (not_lt.mp hge)).2
    simp [hlevel] at hzero
  have hlane := digitalLane_of_packDigital h (List.getElem?_eq_getElem hi)
  rw [hlevel] at hlane
  exact mask_of_level hlane

end

/-- Settles O15: admitted intents pack, and the clauses are the bits of what they pack to. -/
theorem packDigitalPlacesEachLane : Obligations.PackDigitalPlacesEachLane := by
  intro d hadmit
  obtain ⟨levels, mask, hpack⟩ := exists_packDigital_of_admitAll hadmit
  exact ⟨levels, mask, hpack, fun i x => digitalLane_of_packDigital hpack, fun i => getLsbD_of_packDigital hpack,
    fun i => mask_of_level_of_packDigital hpack⟩

/-! ### The PWM pair of an intent -/

/-- R142: the high byte; a larger number loses the bits above 15. -/
theorem pwmPair_fst_toNat {n : Nat} (h : n < 65536) : (pwmPair n).1.toNat = n / 256 := by
  rw [pwmPair, BitVec.toNat_ofNat, Nat.shiftRight_eq_div_pow]
  omega

/-- R142: the low byte. -/
theorem pwmPair_snd_toNat (n : Nat) : (pwmPair n).2.toNat = n % 256 := by
  have hand : n &&& 0xFF = n % 256 := Nat.and_two_pow_sub_one_eq_mod n 8
  rw [pwmPair, BitVec.toNat_ofNat, hand]
  omega

/-- R142: an intent in 0..100 is scaled. -/
theorem packAnalog_of_controlled {q : Rat} (h0 : 0 ≤ q) (h100 : q ≤ 100) :
    packAnalog (.fin q) = pwmPair (pwmScale q) := if_pos ⟨h0, h100⟩

/-- R142: an intent below 0 or above 100 is not controlled. -/
theorem packAnalog_of_not_controlled {q : Rat} (h : q < 0 ∨ 100 < q) : packAnalog (.fin q) = pwmSentinel :=
  if_neg fun ⟨h0, h100⟩ => h.elim (not_lt.mpr h0) (not_lt.mpr h100)

/-- R142: `pwmScale` is the library's floor in the natural numbers. -/
theorem pwmScale_eq_floor (q : Rat) : pwmScale q = ⌊1024 * q / 100⌋₊ := by
  rw [pwmScale, floorRat_eq_floor, Int.floor_toNat]

/-- R142: the scaled value is at most 1024. -/
theorem pwmScale_le {q : Rat} (h : q ≤ 100) : pwmScale q ≤ 1024 := by
  rw [pwmScale_eq_floor]
  exact Nat.floor_le_of_le (by push_cast; linarith)

/-- Settles O16: the number is `pwmScale q`, a floor of at most 1024, so that both bytes of its pair are exact. -/
theorem packAnalogScalesOrSaysNotControlled : Obligations.PackAnalogScalesOrSaysNotControlled := by
  refine ⟨fun q h0 h100 => ?_, fun q => packAnalog_of_not_controlled, rfl, rfl, rfl⟩
  have hbound : pwmScale q ≤ 1024 := pwmScale_le h100
  have hlow : (pwmScale q : Rat) ≤ 1024 * q / 100 := by
    rw [pwmScale_eq_floor]
    exact Nat.floor_le (by positivity)
  have hhigh : 1024 * q / 100 < (pwmScale q : Rat) + 1 := by
    rw [pwmScale_eq_floor]
    exact Nat.lt_floor_add_one _
  rw [packAnalog_of_controlled h0 h100]
  exact ⟨pwmScale q, hbound, hlow, hhigh, pwmPair_fst_toNat (by omega), pwmPair_snd_toNat _⟩

end Sys2Proof.Proofs
end

section
/-! PROOFS. The outbound frame and its line (42_packer.md R144, R148), and what ENCCMD and ENC answer with it (R149,
R150). -/

open Sys2Proof Sys2Proof.Machine Sys2Proof.Claims

namespace Sys2Proof.Proofs

/-! ### The frame and its line -/

/-- R70, R144: the first 13 bytes of the outbound frame. -/
def frameBody (addr levels mask : Byte) (a : Quad Intent) : List Byte :=
  [addr, 0x80#8, 0x01#8, levels, mask,
   (packAnalog a.ch0).1, (packAnalog a.ch0).2, (packAnalog a.ch1).1, (packAnalog a.ch1).2,
   (packAnalog a.ch2).1, (packAnalog a.ch2).2, (packAnalog a.ch3).1, (packAnalog a.ch3).2]

section
variable {d : Quad Intent} (addr : Byte) (a : Quad Intent)

/-- R144: the frame is its body and the checksum of that. -/
theorem assemble_of_packDigital {levels mask : Byte} (h : packDigital d = some (levels, mask)) :
    assemble addr d a =
      some (frameBody addr levels mask a ++ [checksumBytes (frameBody addr levels mask a)]) := by
  rw [assemble, packFrame, h]
  rfl

/-- R70, R144: admitted digital intents give a frame of 14 bytes. -/
theorem exists_assemble_of_admitAll (h : admitAll d = true) :
    ∃ b, assemble addr d a = some b ∧ b.length = 14 := by
  obtain ⟨levels, mask, hpack⟩ := exists_packDigital_of_admitAll h
  exact ⟨_, assemble_of_packDigital addr a hpack, rfl⟩

end

/-- R148: the line is the frame's, rendered. -/
theorem encodeFrame_of_assemble {addr : Byte} {d a : Quad Intent} {b : List Byte} (h : assemble addr d a = some b) :
    encodeFrame addr d a = some (renderLine b) := by
  rw [encodeFrame, h, Option.map_some]

/-- R9, R200: the digits of a body are uppercase. -/
theorem mem_upperHex_of_mem_hexBody {b : List Byte} {c : Char} (h : c ∈ hexBody b) : c ∈ upperHex := by
  obtain ⟨n, hn, rfl⟩ := hexVal_of_mem_hexBody b c h
  exact List.mem_of_getElem? (upperHex_getElem? hn)

/-- R120, R200: the markers around the digits. -/
theorem renderLine_eq (b : List Byte) : renderLine b = ':' :: (hexBody b ++ ['\r', '\n']) := rfl

/-- R200: two digits for each byte and three marker characters. -/
theorem renderLine_length (b : List Byte) : (renderLine b).length = 2 * b.length + 3 := by
  simp [renderLine_eq]

/-- Settles O18: the last byte is `checksumBytes` of the 13 before it, whose value is R100's formula. -/
theorem assembledFrameFollowsTheByteTable : Obligations.AssembledFrameFollowsTheByteTable := by
  intro addr d a hadmit
  obtain ⟨levels, mask, hpack⟩ := exists_packDigital_of_admitAll hadmit
  exact ⟨levels, mask, checksumBytes (frameBody addr levels mask a), hpack, assemble_of_packDigital addr a hpack,
    checksumBytes_toNat _⟩

/-- Settles O20: the line is the rendering of the frame's 14 bytes. -/
theorem encodedLineHasThirtyOneCharacters : Obligations.EncodedLineHasThirtyOneCharacters := by
  intro addr d a hadmit
  obtain ⟨b, hb, hlen⟩ := exists_assemble_of_admitAll addr a hadmit
  have hline : (renderLine b).length = 31 := by rw [renderLine_length, hlen]
  exact ⟨renderLine b, hexBody b, b, encodeFrame_of_assemble hb, hb, rfl, renderLine_eq b, hexBody_length b, hline,
    fun c => mem_upperHex_of_mem_hexBody⟩

/-! ### ENCCMD and ENC -/

/-- R140, R148: with admitted digital intents the frame has a line, and that is the response. -/
theorem respondFrame_of_admitAll {d : Quad Intent} (addr : Byte) (a : Quad Intent) (s : State)
    (h : admitAll d = true) : ∃ line, encodeFrame addr d a = some line ∧
      respondFrame addr d a s = .next (answered s .ok (.str line)) := by
  obtain hline | ⟨hnone, -⟩ := respondFrame_cases addr d a s
  · exact hline
  · simp [← encodeFrame_isSome addr d a, hnone] at h

/-- R62: code 7. -/
theorem decode_enccmd : decode ⟨0x07#8, []⟩ = .ok .enccmd :=
  decode_of_header_lt (show 7 < 16 by decide)

/-- Settles O21: ENCCMD is `respondFrame` on the fields of CMD. -/
theorem enccmdEncodesTheCommandRegister : Obligations.EnccmdEncodesTheCommandRegister := fun s hadmit =>
  ⟨decode_enccmd, respondFrame_of_admitAll s.cmd.addr s.cmd.analog s hadmit⟩

/-- R62: code 8. -/
theorem decode_enc (d a : List Intent) (addr : Option Int) :
    decode ⟨0x08#8, [.intents d, .intents a, .optInt addr]⟩ = .ok (.enc d a addr) :=
  decode_of_header_lt (show 8 < 16 by decide)

/-- R123, R150: a wrong count of either list raises InvalidChannelCount. -/
theorem exec_enc_of_length_ne {d a : List Intent} (addr : Option Int) (s : State)
    (h : d.length ≠ 4 ∨ a.length ≠ 4) : exec (.enc d a addr) s = raise .invalidChannelCount s := by
  cases hd : channels d with
  | none => exact exec_enc_of_digital_none s addr hd
  | some dq =>
    have hdlen : ¬ d.length ≠ 4 := by simp [← channels_eq_none_iff_length_ne, hd]
    exact exec_enc_of_analog_none s addr hd ((channels_eq_none_iff_length_ne a).mpr (h.resolve_left hdlen))

/-- R63, R150: a given address is taken mod 256. -/
theorem addressOperand_toNat {addr : Option Int} {n : Int} (h : addr = some n) :
    ((addressOperand addr).toNat : Int) = n % 256 := by
  subst h
  exact byteOfInt_toNat n

/-- Settles O22: the three clauses are the outcomes of the checks of R123 and R124 on ENC's own lists. -/
theorem encEncodesItsOperands : Obligations.EncEncodesItsOperands := by
  intro d a addr s
  refine ⟨decode_enc d a addr, exec_enc_of_length_ne addr s, fun hd ha hbad => ?_, ?_⟩
  · obtain ⟨dq, hdq⟩ := exists_channels_of_length_eq hd
    obtain ⟨aq, haq⟩ := exists_channels_of_length_eq ha
    have hnot : ¬ admitAll dq = true := fun hadmit => (admitAll_iff_not_notNumeric hdq).mp hadmit hbad
    exact exec_enc_of_not_admitted s addr hdq haq hnot
  · rintro x0 x1 x2 x3 y0 y1 y2 y3 rfl rfl hgood
    have hdq : channels [x0, x1, x2, x3] = some ⟨x0, x1, x2, x3⟩ := rfl
    have haq : channels [y0, y1, y2, y3] = some ⟨y0, y1, y2, y3⟩ := rfl
    have hadmit := (admitAll_iff_not_notNumeric hdq).mpr hgood
    obtain ⟨line, hline, hrespond⟩ := respondFrame_of_admitAll (addressOperand addr) ⟨y0, y1, y2, y3⟩ s hadmit
    refine ⟨addressOperand addr, line, ?_, fun n => addressOperand_toNat, hline, ?_⟩
    · rintro rfl
      rfl
    · rw [exec_enc_of_admitted s addr hdq haq hadmit, hrespond]

end Sys2Proof.Proofs
end

section
/-! PROOFS. How DEC scales the fields of a status frame (43_unpacker.md R174 to R178), and what it answers for one line
(R181). -/

open Sys2Proof Sys2Proof.Machine Sys2Proof.Claims

namespace Sys2Proof.Proofs

/-! ### The LQI calibration -/

/-- R175: no byte reaches 1970/7, so `7r - 1970` is not 0. -/
theorem seven_mul_byte_sub_neg (r : Byte) : 7 * (r.toNat : Rat) - 1970 < 0 := by
  have hr : r.toNat ≤ 255 := Nat.le_of_lt_succ r.isLt
  have hr' : (r.toNat : Rat) ≤ 255 := mod_cast hr
  linarith

/-- R174 as written: the divisor is not 0, so the result is known. -/
theorem lqiCalibrate_asWritten (r : Byte) :
    lqiCalibrate .asWritten r = .known ((r.toNat : Rat) / ((7 * (r.toNat : Rat) - 1970) / 20)) :=
  if_neg (div_ne_zero (seven_mul_byte_sub_neg r).ne (by norm_num))

/-- Settles O33: the divisor is never 0, and dividing by a twentieth multiplies by 20. -/
theorem lqiFollowsTheCalibrationFormula : Obligations.LqiFollowsTheCalibrationFormula := by
  refine fun r => ⟨lqiCalibrate_asWritten r, ?_, rfl⟩
  rw [lqiCalibrate_asWritten, div_div_eq_mul_div, mul_comm]

/-! ### The digital inputs -/

section
variable {level changed level' changed' : Byte} {i : Nat}

/-- R43, R177: element i is lane i's. -/
theorem eq_unpackDigitalLane {n : Int} (h : (quadList (unpackDigital level changed))[i]? = some n) :
    n = unpackDigitalLane level changed i :=
  match i, h with
  | 0, rfl => rfl
  | 1, rfl => rfl
  | 2, rfl => rfl
  | 3, rfl => rfl

/-- R177: a lane reads its changed bit, and its level bit where that is 1. -/
theorem unpackDigitalLane_congr (hchanged : changed.getLsbD i = changed'.getLsbD i)
    (hlevel : changed.getLsbD i = true → level.getLsbD i = level'.getLsbD i) :
    unpackDigitalLane level changed i = unpackDigitalLane level' changed' i := by
  unfold unpackDigitalLane
  rw [← hchanged]
  split
  · next hreported => rw [hlevel hreported]
  · rfl

end

/-- Settles O35: each of the four lanes reads its own bits alone. -/
theorem digitalInputReadsOnlyReportedLanes : Obligations.DigitalInputReadsOnlyReportedLanes := by
  intro level changed level' changed' hchanged hlevel
  have hlane : ∀ i, i < 4 → unpackDigitalLane level changed i = unpackDigitalLane level' changed' i :=
    fun i hi => unpackDigitalLane_congr (hchanged i hi) (hlevel i hi)
  refine ⟨?_, fun i n => eq_unpackDigitalLane⟩
  simp only [unpackDigital, hlane, Nat.reduceLT]

/-! ### The analog inputs -/

/-- R43: two bits of a byte are one digit in base 4. -/
theorem two_pow_two_mul (i : Nat) : 2 ^ (2 * i) = 4 ^ i := pow_mul 2 2 i

section
variable (raw correction : Byte) (i : Nat)

/-- R43: channel i's correction is digit i of the correction byte in base 4. -/
theorem correctionBits_eq_digit : correctionBits correction i = correction.toNat / 4 ^ i % 4 := by
  rw [correctionBits, BitVec.extractLsb'_toNat, Nat.shiftRight_eq_div_pow, two_pow_two_mul]

/-- R43: the two bits of that digit. -/
theorem correctionBits_eq_bits : correctionBits correction i =
    2 * (correction.getLsbD (2 * i + 1)).toNat + (correction.getLsbD (2 * i)).toNat := by
  have hhigh : correction.toNat / 2 ^ (2 * i + 1) = correction.toNat / 4 ^ i / 2 := by
    rw [pow_succ, two_pow_two_mul, Nat.div_div_eq_div_mul]
  rw [correctionBits_eq_digit, BitVec.getLsbD, BitVec.getLsbD, Nat.toNat_testBit, Nat.toNat_testBit, hhigh,
    two_pow_two_mul]
  omega

theorem correctionBits_lt : correctionBits correction i < 4 := by
  rw [correctionBits_eq_digit]
  exact Nat.mod_lt _ (by decide)

variable {raw}

/-- R178: the sentinel. -/
theorem unpackAnalogLane_of_eq (h : raw = 0xFF#8) : unpackAnalogLane raw correction i = -1 := if_pos h

/-- R178: every other raw byte is scaled. -/
theorem unpackAnalogLane_of_ne (h : raw ≠ 0xFF#8) :
    unpackAnalogLane raw correction i = ((raw.toNat : Int) * 4 + correctionBits correction i) * 4 := by
  rw [unpackAnalogLane, if_neg h]
  push_cast
  rfl

/-- R178: an analog lane with its correction as a digit of the correction byte. -/
theorem unpackAnalogLane_eq_ite : unpackAnalogLane raw correction i =
    if raw = 0xFF#8 then -1 else ((raw.toNat : Int) * 4 + (correction.toNat / 4 ^ i % 4 : Nat)) * 4 := by
  split
  · next h => exact unpackAnalogLane_of_eq correction i h
  · next h => rw [unpackAnalogLane_of_ne correction i h, correctionBits_eq_digit]

variable {correction i}

/-- R43, R178: element i is lane i's, from raw byte i. -/
theorem eq_unpackAnalogLane {q : Quad Byte} {n : Int} (h : (quadList (unpackAnalog q correction))[i]? = some n)
    (hraw : (quadList q)[i]? = some raw) : n = unpackAnalogLane raw correction i :=
  match i, h, hraw with
  | 0, rfl, rfl => rfl
  | 1, rfl, rfl => rfl
  | 2, rfl, rfl => rfl
  | 3, rfl, rfl => rfl

end

/-- Settles O34: a raw byte other than 0xFF is at most 254 and a correction at most 3. -/
theorem analogInputIsScaledOrNotReported : Obligations.AnalogInputIsScaledOrNotReported := by
  intro raw correction i _
  refine ⟨unpackAnalogLane_of_eq correction i, fun hne => ⟨correctionBits correction i, ?_⟩⟩
  have hraw : raw.toNat ≠ 255 := fun h => hne (BitVec.eq_of_toNat_eq h)
  have hbyte := raw.isLt
  have hcorr := correctionBits_lt correction i
  rw [unpackAnalogLane_of_ne correction i hne]
  exact ⟨correctionBits_eq_bits correction i, by omega, by omega, by omega, by omega⟩

/-! ### DEC -/

/-- R62: code 9. -/
theorem decode_dec (line : Str) : decode ⟨0x09#8, [.str line]⟩ = .ok (.dec line) :=
  decode_of_header_lt (show 9 < 16 by decide)

section
variable {line : Str} {b : List Byte} {f : StatusNotifyFrame} {s : State}

/-- R203: a line without bytes holds no frame. -/
theorem parseStatusLine_of_parseLine_none (h : parseLine line = none) : parseStatusLine line = none := by
  rw [parseStatusLine, h, Option.bind_none]

/-- R74, R203: a line whose bytes are a frame's holds that frame. -/
theorem parseStatusLine_of_statusNotifyOfBytes (hline : parseLine line = some b)
    (hf : statusNotifyOfBytes b = some f) : parseStatusLine line = some f := by
  rw [parseStatusLine, hline, Option.bind_some, hf]

/-- R180, R181: with CHKEN set, a line whose bytes do not sum to 0 mod 256 raises ChecksumMismatch. -/
theorem exec_dec_of_sum_ne (hline : parseLine line = some b) (hchken : s.cfg.chken = true)
    (hsum : sumOf b % 256 ≠ 0) : exec (.dec line) s = raise .checksumMismatch s := by
  obtain ⟨f, hf, rfl⟩ := parseStatusLine_of_parseLine hline
  refine exec_dec_of_mismatch hf ?_
  rw [checkOK_iff]
  simp [hchken, hsum]

/-- R180, R181: a line that passes the checksum check, or is not checked, gives the status record of its frame. -/
theorem exec_dec_of_sum (hline : parseLine line = some b) (hf : statusNotifyOfBytes b = some f)
    (hsum : s.cfg.chken = false ∨ sumOf b % 256 = 0) :
    exec (.dec line) s = respond (.status (statusRecord s.lqiCal f)) s := by
  rw [← bytes_of_statusNotifyOfBytes b f hf] at hsum
  exact exec_dec_of_checkOK (parseStatusLine_of_statusNotifyOfBytes hline hf) ((checkOK_iff _ f).mpr hsum)

end

/-- Settles O31: the three outcomes of DEC's two checks; the record is that of the frame the 24 bytes are. -/
theorem decDecodesOneStatusLine : Obligations.DecDecodesOneStatusLine := by
  intro line s
  refine ⟨decode_dec line, fun hnone => exec_dec_of_malformed (parseStatusLine_of_parseLine_none hnone), ?_⟩
  intro b0 b1 b2 b3 b4 b5 b6 b7 b8 b9 b10 b11 b12 b13 b14 b15 b16 b17 b18 b19 b20 b21 b22 b23 hline
  refine ⟨exec_dec_of_sum_ne hline, fun hsum => ?_⟩
  refine ⟨_, exec_dec_of_sum hline rfl hsum, rfl, rfl, rfl, rfl, rfl, rfl, rfl, rfl, rfl,
    fun i n => eq_unpackDigitalLane, fun i n raw hn hraw => ?_⟩
  rw [← unpackAnalogLane_eq_ite]
  exact eq_unpackAnalogLane hn hraw

end Sys2Proof.Proofs
end

section
/-! PROOFS. What the line framer writes and reads (44_framer.md R200 to R203): the digits of a rendered line, the value of a
hex digit, the markers a line loses, and the lines that parse. -/

open Sys2Proof Sys2Proof.Machine Sys2Proof.Claims

namespace Sys2Proof.Proofs

/-! ### Rendering a line -/

/-- R101, R200: where the two digits of a byte stand. -/
theorem hexBody_getElem?_pair : ∀ {b : List Byte} {k : Nat} {v : Byte}, b[k]? = some v →
    (hexBody b)[2 * k]? = some (hexDigit (v.toNat / 16)) ∧ (hexBody b)[2 * k + 1]? = some (hexDigit (v.toNat % 16))
  | [], _, _, h => by cases h
  | _ :: _, 0, _, h => by
    cases h
    rw [hexBody_cons]
    exact ⟨rfl, rfl⟩
  | _ :: _, _ + 1, _, h => by
    rw [hexBody_cons]
    exact hexBody_getElem?_pair h

/-- Settles O26: what stands between the markers is the body of digits. -/
theorem renderedLineHoldsEachByteInOrder : Obligations.RenderedLineHoldsEachByteInOrder := by
  intro b
  refine ⟨hexBody b, renderLine_eq b, renderLine_length b, fun c => mem_upperHex_of_mem_hexBody, fun k v hv => ?_⟩
  have hbyte := v.isLt
  rw [upperHex_getElem? (show v.toNat / 16 < 16 by omega), upperHex_getElem? (show v.toNat % 16 < 16 by omega)]
  exact hexBody_getElem?_pair hv

/-! ### Hex digits -/

/-- R201: the three ranges of characters that have a value. -/
theorem toNat_of_hexVal {c : Char} {n : Nat} (h : hexVal c = some n) :
    (n < 10 ∧ c.toNat = 0x30 + n) ∨ (10 ≤ n ∧ n < 16 ∧ c.toNat = 0x41 + (n - 10)) ∨
      (10 ≤ n ∧ n < 16 ∧ c.toNat = 0x61 + (n - 10)) := by
  simp only [hexVal] at h
  split_ifs at h <;> simp only [Option.some.injEq] at h <;> omega

theorem hexVal_lt {c : Char} {n : Nat} (h : hexVal c = some n) : n < 16 := by
  have := toNat_of_hexVal h
  omega

/-- R201: the lowercase digits from `a` on, by their code. -/
theorem lowerHex_getElem?_of_ten_le {n : Nat} (hge : 10 ≤ n) (hlt : n < 16) :
    lowerHex[n]? = some (Char.ofNat (0x61 + (n - 10))) := by
  have hletters : ∀ m : Fin 16, 10 ≤ m.val → lowerHex[m.val]? = some (Char.ofNat (0x61 + (m.val - 10))) := by decide
  exact hletters ⟨n, hlt⟩ hge

/-- R201: a character with a value is one of the two digits of that value. -/
theorem upperHex_or_lowerHex_of_hexVal {c : Char} {n : Nat} (h : hexVal c = some n) :
    upperHex[n]? = some c ∨ lowerHex[n]? = some c := by
  rw [← Char.ofNat_toNat c]
  obtain ⟨hlt, hc⟩ | ⟨hge, hlt, hc⟩ | ⟨hge, hlt, hc⟩ := toNat_of_hexVal h
  · left
    rw [upperHex_getElem? (by omega), hexDigit, if_pos hlt, hc]
  · left
    rw [upperHex_getElem? hlt, hexDigit, if_neg (by omega), hc]
  · right
    rw [lowerHex_getElem?_of_ten_le hge hlt, hc]

theorem hexVal_of_upperHex {c : Char} {n : Nat} (h : upperHex[n]? = some c) : hexVal c = some n := by
  obtain ⟨hlt, -⟩ := List.getElem?_eq_some_iff.mp h
  rw [upperHex_getElem? hlt] at h
  cases h
  exact hexVal_hexDigit n hlt

theorem hexVal_of_lowerHex {c : Char} {n : Nat} (h : lowerHex[n]? = some c) : hexVal c = some n := by
  obtain ⟨hlt, rfl⟩ := List.getElem?_eq_some_iff.mp h
  have hdigits : ∀ m : Fin 16, hexVal lowerHex[m] = some m.val := by decide
  exact hdigits ⟨n, hlt⟩

/-- R201: only a pair of hex digits makes a byte. -/
theorem exists_hexVal_of_parseHexByte {c1 c2 : Char} {v : Byte} (hv : parseHexByte c1 c2 = some v) :
    (∃ h, hexVal c1 = some h) ∧ ∃ l, hexVal c2 = some l := by
  unfold parseHexByte at hv
  split at hv
  · next h l hh hl => exact ⟨⟨h, hh⟩, ⟨l, hl⟩⟩
  · cases hv

/-- R201: two hex digits make a byte, and the first is the high digit. -/
theorem exists_parseHexByte {c1 c2 : Char} {h l : Nat} (hh : hexVal c1 = some h) (hl : hexVal c2 = some l) :
    ∃ v : Byte, parseHexByte c1 c2 = some v ∧ v.toNat = 16 * h + l := by
  have hhlt := hexVal_lt hh
  have hllt := hexVal_lt hl
  refine ⟨BitVec.ofNat 8 (16 * h + l), by rw [parseHexByte, hh, hl], ?_⟩
  rw [BitVec.toNat_ofNat]
  omega

/-- Settles O27: the characters of the three ranges are the digits of both cases; a pair's value is below 256. -/
theorem hexDigitsOfBothCasesHaveTheirValue : Obligations.HexDigitsOfBothCasesHaveTheirValue :=
  ⟨fun _ _ => ⟨upperHex_or_lowerHex_of_hexVal, fun h => h.elim hexVal_of_upperHex hexVal_of_lowerHex⟩,
    fun _ _ _ _ => exists_parseHexByte⟩

/-! ### The markers of a line -/

/-- R202: a line that does not begin with the start marker keeps its first character. -/
theorem stripStart_of_head?_ne {s : Str} (h : s.head? ≠ some startMarker) : stripStart s = s := by
  cases s with
  | nil => rfl
  | cons c rest =>
    have hc : c ≠ startMarker := fun hc => h (congrArg some hc)
    exact if_neg hc

/-- R202: a line that does not end with CR LF keeps its end. -/
theorem stripEnd_of_not_suffix {s : Str} (h : ¬ endMarker <:+ s) : stripEnd s = s :=
  (stripEnd_cases s).resolve_right fun hs => h ⟨stripEnd s, hs.symm⟩

/-- R120: CR is no start marker, so a CR LF put after a line does not give it one. -/
theorem head?_append_endMarker_ne {s : Str} (h : s.head? ≠ some startMarker) :
    (s ++ endMarker).head? ≠ some startMarker := by
  cases s with
  | nil => decide
  | cons c rest => exact h

/-- Settles O28: the start marker is looked for first, the end marker in what that leaves. -/
theorem stripMarkersDropsOneOfEachIfThere : Obligations.StripMarkersDropsOneOfEachIfThere := by
  refine ⟨fun rest => ?_, fun rest hend => ?_, fun rest hstart => ?_, fun rest hstart hend => ?_⟩
  · change stripEnd (stripStart (startMarker :: (rest ++ endMarker))) = rest
    rw [stripStart_cons, stripEnd_append_endMarker]
  · change stripEnd (stripStart (startMarker :: rest)) = rest
    rw [stripStart_cons, stripEnd_of_not_suffix hend]
  · change stripEnd (stripStart (rest ++ endMarker)) = rest
    rw [stripStart_of_head?_ne (head?_append_endMarker_ne hstart), stripEnd_append_endMarker]
  · rw [stripMarkers, stripStart_of_head?_ne hstart, stripEnd_of_not_suffix hend]

/-! ### Parsing a line -/

/-- R203: a pair in front of a line adds its byte in front. -/
theorem parsePairs_cons_cons_eq_some_iff {c1 c2 : Char} {rest : Str} {b : List Byte} :
    parsePairs (c1 :: c2 :: rest) = some b ↔
      ∃ v bs, parseHexByte c1 c2 = some v ∧ parsePairs rest = some bs ∧ v :: bs = b := by
  rw [parsePairs]
  split
  · next v bs hv hbs => simp [hv, hbs]
  · next hnot =>
    refine ⟨fun h => (by cases h), ?_⟩
    rintro ⟨v, bs, hv, hbs, -⟩
    exact (hnot v bs hv hbs).elim

/-- R203: a character that is no hex digit leaves the line without bytes. -/
theorem exists_hexVal_of_parsePairs : ∀ {s : Str} {b : List Byte}, parsePairs s = some b →
    ∀ c ∈ s, ∃ n, hexVal c = some n
  | [], _, _, _, hc => by cases hc
  | [_], _, h, _, _ => by cases h
  | _ :: _ :: _, _, h, c, hc => by
    obtain ⟨v, bs, hv, hbs, -⟩ := parsePairs_cons_cons_eq_some_iff.mp h
    obtain ⟨hc1, hc2⟩ := exists_hexVal_of_parseHexByte hv
    obtain rfl | rfl | hc := by simpa only [List.mem_cons] using hc
    · exact hc1
    · exact hc2
    · exact exists_hexVal_of_parsePairs hbs c hc

/-- R203: digits in pairs, none left over, parse. -/
theorem exists_parsePairs_of_hexVal : ∀ {s : Str}, 2 ∣ s.length → (∀ c ∈ s, ∃ n, hexVal c = some n) →
    ∃ b, parsePairs s = some b
  | [], _, _ => ⟨[], rfl⟩
  | [_], hlen, _ => absurd hlen (show ¬ 2 ∣ 1 by decide)
  | c1 :: c2 :: rest, hlen, hdigits => by
    obtain ⟨⟨h, hh⟩, ⟨l, hl⟩, hrest⟩ := by simpa only [List.forall_mem_cons] using hdigits
    obtain ⟨v, hv, -⟩ := exists_parseHexByte hh hl
    have hlenRest : 2 ∣ rest.length := (Nat.dvd_add_left (dvd_refl 2)).mp hlen
    obtain ⟨bs, hbs⟩ := exists_parsePairs_of_hexVal hlenRest hrest
    exact ⟨v :: bs, parsePairs_cons_cons_eq_some_iff.mpr ⟨v, bs, hv, hbs, rfl⟩⟩

/-- R203: byte k is that of the pair of characters 2k and 2k + 1. -/
theorem parsePairs_getElem? : ∀ {s : Str} {b : List Byte} {k : Nat} {v : Byte}, parsePairs s = some b →
    b[k]? = some v → ∃ c1 c2, s[2 * k]? = some c1 ∧ s[2 * k + 1]? = some c2 ∧ parseHexByte c1 c2 = some v
  | [], _, _, _, h, hv => by
    cases h
    cases hv
  | [_], _, _, _, h, _ => by cases h
  | c1 :: c2 :: _, _, 0, _, h, hv => by
    obtain ⟨w, bs, hw, -, rfl⟩ := parsePairs_cons_cons_eq_some_iff.mp h
    cases hv
    exact ⟨c1, c2, rfl, rfl, hw⟩
  | _ :: _ :: _, _, _ + 1, _, h, hv => by
    obtain ⟨w, bs, -, hbs, rfl⟩ := parsePairs_cons_cons_eq_some_iff.mp h
    have ih := parsePairs_getElem? hbs hv
    exact ih

/-- R203: the bytes of a line are those of the pairs of its 48 stripped characters. -/
theorem parseLine_eq_some_iff {line : Str} {b : List Byte} :
    parseLine line = some b ↔ (stripMarkers line).length = 48 ∧ parsePairs (stripMarkers line) = some b :=
  Option.ite_none_right_eq_some

/-- Settles O29: 48 characters make whole pairs, so the line parses exactly when all of them are digits. -/
theorem lineParsesExactlyWithFortyEightDigits : Obligations.LineParsesExactlyWithFortyEightDigits := by
  intro line
  refine ⟨⟨?_, ?_⟩, fun b hline => ⟨length_of_parseLine hline, fun k v hv => ?_⟩⟩
  · rintro ⟨b, hline⟩
    obtain ⟨hlen, hpairs⟩ := parseLine_eq_some_iff.mp hline
    exact ⟨hlen, exists_hexVal_of_parsePairs hpairs⟩
  · rintro ⟨hlen, hdigits⟩
    obtain ⟨b, hpairs⟩ := exists_parsePairs_of_hexVal (hlen ▸ (by decide : 2 ∣ 48)) hdigits
    exact ⟨b, parseLine_eq_some_iff.mpr ⟨hlen, hpairs⟩⟩
  · obtain ⟨-, hpairs⟩ := parseLine_eq_some_iff.mp hline
    exact parsePairs_getElem? hpairs hv

end Sys2Proof.Proofs
end

section
/-! PROOFS. How a request ends (60_exceptions.md R220, R223, R228): with OK and a result, with one error, or refused.
`exec_outcome` is the case analysis over the operations; the two obligations read it off the next state. -/

open Sys2Proof Sys2Proof.Machine Sys2Proof.Claims

namespace Sys2Proof.Proofs

/-- R31: no operation's register write touches the mark. -/
@[simp] theorem RegisterWrite.on_refused (w : RegisterWrite) (s : State) : (w.on s).refused = s.refused := by
  cases w <;> rfl

/-- R228: the two forms of request that can be refused, with the digital intents that make them so. -/
def NotNumericRequest (i : Instr) : Prop :=
  (∃ l, i = .setd l ∧ l.length = 4 ∧ notNumeric l) ∨
  (∃ d a addr, i = .enc d a addr ∧ d.length = 4 ∧ a.length = 4 ∧ notNumeric d)

/-- R8: what performing an operation in s gives: its result, one error, the refusal, or R140's "never reached". -/
inductive OutcomeOf (i : Instr) (s : State) : Result → Prop
  | responds (w : RegisterWrite) {p : Payload} (hp : resultFits i p) : OutcomeOf i s (respond p (w.on s))
  | raises (e : ErrorKind) : OutcomeOf i s (raise e s)
  | refuses (r : RefuseReason) (hi : NotNumericRequest i) : OutcomeOf i s (refuse r s)
  | stops (f : Fault) : OutcomeOf i s (.fault f)

/-! ### The outcome of each operation -/

/-- R123: a list with channels has four elements. -/
theorem length_of_channels {l : List Intent} {q : Quad Intent} (h : channels l = some q) : l.length = 4 := by
  rw [(channels_eq_some_iff l q).mp h]
  rfl

/-- R124: channels that are not admitted come from a list with an element that is not numeric. -/
theorem notNumeric_of_not_admitAll {l : List Intent} {q : Quad Intent} (h : channels l = some q)
    (hbad : ¬ admitAll q = true) : notNumeric l :=
  not_not.mp fun hgood => hbad ((admitAll_iff_not_notNumeric h).mpr hgood)

/-- R148: every line the encoder gives has 31 characters. -/
theorem length_of_encodeFrame {addr : Byte} {d a : Quad Intent} {line : Str}
    (h : encodeFrame addr d a = some line) : line.length = 31 := by
  have hadmit : admitAll d = true := by rw [← encodeFrame_isSome addr d a, h, Option.isSome_some]
  obtain ⟨line', -, -, hline, -, -, -, -, hlen, -⟩ := encodedLineHasThirtyOneCharacters addr d a hadmit
  rwa [Option.some.inj (h.symm.trans hline)]

section
variable (s : State)

/-- R149, R150: ENCCMD and ENC, whose result is a line, answer with one or stop. -/
theorem outcomeOf_respondFrame {i : Instr} (addr : Byte) (d a : Quad Intent)
    (hi : ∀ line : Str, line.length = 31 → resultFits i (.str line)) : OutcomeOf i s (respondFrame addr d a s) := by
  obtain ⟨line, hline, hresult⟩ | ⟨-, hresult⟩ := respondFrame_cases addr d a s
  · rw [hresult]
    exact .responds .nothing (hi line (length_of_encodeFrame hline))
  · rw [hresult]
    exact .stops _

theorem outcomeOf_setd (l : List Intent) : OutcomeOf (.setd l) s (exec (.setd l) s) := by
  cases hl : channels l with
  | none => rw [exec_setd_of_channels_none s hl]; exact .raises _
  | some d =>
    by_cases hadmit : admitAll d = true
    · rw [exec_setd_of_admitted s hl hadmit]
      exact .responds (.digital d) rfl
    · rw [exec_setd_of_not_admitted s hl hadmit]
      exact .refuses _ (.inl ⟨l, rfl, length_of_channels hl, notNumeric_of_not_admitAll hl hadmit⟩)

theorem outcomeOf_seta (l : List Intent) : OutcomeOf (.seta l) s (exec (.seta l) s) := by
  cases hl : channels l with
  | none => rw [exec_seta_of_channels_none s hl]; exact .raises _
  | some a => rw [exec_seta_of_channels s hl]; exact .responds (.analog a) rfl

theorem outcomeOf_enc (dl al : List Intent) (addr : Option Int) :
    OutcomeOf (.enc dl al addr) s (exec (.enc dl al addr) s) := by
  cases hd : channels dl with
  | none => rw [exec_enc_of_digital_none s addr hd]; exact .raises _
  | some d =>
    cases ha : channels al with
    | none => rw [exec_enc_of_analog_none s addr hd ha]; exact .raises _
    | some a =>
      by_cases hadmit : admitAll d = true
      · rw [exec_enc_of_admitted s addr hd ha hadmit]
        exact outcomeOf_respondFrame s _ d a fun line hlen => ⟨line, rfl, hlen⟩
      · rw [exec_enc_of_not_admitted s addr hd ha hadmit]
        exact .refuses _ (.inr ⟨dl, al, addr, rfl, length_of_channels hd, length_of_channels ha,
          notNumeric_of_not_admitAll hd hadmit⟩)

theorem outcomeOf_dec (line : Str) : OutcomeOf (.dec line) s (exec (.dec line) s) := by
  cases hp : parseStatusLine line with
  | none => rw [exec_dec_of_malformed hp]; exact .raises _
  | some f =>
    by_cases hc : checkOK s.cfg.chken f = true
    · rw [exec_dec_of_checkOK hp hc]
      exact .responds .nothing ⟨_, rfl⟩
    · rw [exec_dec_of_mismatch hp hc]
      exact .raises _

/-- R8, R62, R228: every operation has one of the four outcomes. -/
theorem exec_outcome (i : Instr) : OutcomeOf i s (exec i s) := by
  cases i with
  | csum bytes => exact .responds .nothing ⟨checksumBytes bytes, rfl⟩
  | hexb v => exact .responds .nothing ⟨_, _, rfl⟩
  | setd l => exact outcomeOf_setd s l
  | seta l => exact outcomeOf_seta s l
  | setadr a => exact .responds (.addr (byteOfInt a)) rfl
  | rdcmd => exact .responds .nothing ⟨_, _, _, _, _, rfl⟩
  | enccmd => exact outcomeOf_respondFrame s _ _ _ fun line hlen => ⟨line, rfl, hlen⟩
  | enc d a addr => exact outcomeOf_enc s d a addr
  | dec line => exact outcomeOf_dec s line
  | wcfg v => exact .responds (.cfg v) rfl
  | rdcfg => exact .responds .nothing ⟨readCfg s, rfl⟩
  | frameChangeOutput => exact .raises .illegalOperation
  | frameStatusNotify => exact .raises .illegalOperation

end

/-! ### The next state -/

/-- The next state of an operation: an OK answer with its result after one register write, an error answer alone, or the
mark of a refusal. -/
theorem exec_next_outcome {i : Instr} {s t : State} (h : exec i s = .next t) :
    (∃ (w : RegisterWrite) (p : Payload), resultFits i p ∧ t = answer .ok p (w.on s)) ∨
    (∃ e : ErrorKind, t = answer e.code .empty s) ∨
    (NotNumericRequest i ∧ t = markRefused s) := by
  have hout := exec_outcome s i
  generalize exec i s = result at hout h
  cases hout with
  | responds w hp => exact .inl ⟨w, _, hp, (respond_eq_next_iff _ _ _).mp h⟩
  | raises e => exact .inr (.inl ⟨e, (raise_eq_next_iff _ _ _).mp h⟩)
  | refuses r hi => exact .inr (.inr ⟨hi, (refuse_eq_next_iff _ _ _).mp h⟩)
  | stops f => cases h

/-- Settles O44: an OK answer fits the operation, and an error answer is all that an error leaves. -/
theorem everyOperationAnswersOnceOrIsRefused : Obligations.EveryOperationAnswersOnceOrIsRefused := by
  intro i s t h
  obtain ⟨w, p, hp, rfl⟩ | ⟨e, rfl⟩ | ⟨-, rfl⟩ := exec_next_outcome h
  · exact .inr ⟨.ok, p, by simp, by simp, by decide, fun _ => hp, fun hne => absurd rfl hne⟩
  · obtain ⟨hok, hreserved⟩ := code_ne_ok e
    exact .inr ⟨e.code, .empty, rfl, rfl, hreserved, fun hc => absurd hc hok, fun _ => ⟨rfl, rfl⟩⟩
  · exact .inl rfl

/-- R31, R228: an operation leaves the mark as it was, unless it is a refused request. -/
theorem exec_next_refused {i : Instr} {s t : State} (h : exec i s = .next t) :
    t.refused = s.refused ∨ (NotNumericRequest i ∧ t = markRefused s) := by
  obtain ⟨w, p, -, rfl⟩ | ⟨e, rfl⟩ | hrefused := exec_next_outcome h
  · exact .inl (by simp)
  · exact .inl rfl
  · exact .inr hrefused

/-- Settles O45: a mark that an operation leaves as it was is not one that it set. -/
theorem refusalIsOnlyForNonNumericDigitalIntents : Obligations.RefusalIsOnlyForNonNumericDigitalIntents := by
  intro i s t h
  obtain hmark | ⟨hi, rfl⟩ := exec_next_refused h
  · refine ⟨hmark.trans, fun hs ht => ?_⟩
    simp [hmark, hs] at ht
  · exact ⟨fun _ => rfl, fun _ _ => ⟨rfl, hi⟩⟩

end Sys2Proof.Proofs
end

section
/-! PROOFS. Every operation completes (70_reset_and_hazards.md R245): none stops the machine, because every packed list
of digital intents is admitted: ENCCMD's by R25, ENC's by its own check (R124).  The lemmas are one per operation that
checks its operands. -/

open Sys2Proof Sys2Proof.Machine Sys2Proof.Claims

namespace Sys2Proof.Proofs

section
variable (s : State)

/-- R125: each outcome of SETD's two checks is a next state. -/
theorem exec_setd_completes (l : List Intent) : ∃ t, exec (.setd l) s = .next t := by
  cases hl : channels l with
  | none => exact ⟨_, exec_setd_of_channels_none s hl⟩
  | some d =>
    by_cases hadmit : admitAll d = true
    · exact ⟨_, exec_setd_of_admitted s hl hadmit⟩
    · exact ⟨_, exec_setd_of_not_admitted s hl hadmit⟩

/-- R126: either outcome of SETA's count check is a next state. -/
theorem exec_seta_completes (l : List Intent) : ∃ t, exec (.seta l) s = .next t := by
  cases hl : channels l with
  | none => exact ⟨_, exec_seta_of_channels_none s hl⟩
  | some a => exact ⟨_, exec_seta_of_channels s hl⟩

/-- R140, R148: packing admitted digital intents never stops. -/
theorem respondFrame_completes {d : Quad Intent} (addr : Byte) (a : Quad Intent) (hadmit : admitAll d = true) :
    ∃ t, respondFrame addr d a s = .next t := by
  obtain ⟨line, -, hrespond⟩ := respondFrame_of_admitAll addr a s hadmit
  exact ⟨_, hrespond⟩

/-- R150: ENC packs only the digital intents it has found admitted, so it completes whatever CMD holds. -/
theorem exec_enc_completes (dl al : List Intent) (addr : Option Int) : ∃ t, exec (.enc dl al addr) s = .next t := by
  cases hd : channels dl with
  | none => exact ⟨_, exec_enc_of_digital_none s addr hd⟩
  | some d =>
    cases ha : channels al with
    | none => exact ⟨_, exec_enc_of_analog_none s addr hd ha⟩
    | some a =>
      by_cases hadmit : admitAll d = true
      · rw [exec_enc_of_admitted s addr hd ha hadmit]
        exact respondFrame_completes s _ a hadmit
      · exact ⟨_, exec_enc_of_not_admitted s addr hd ha hadmit⟩

/-- R181: DEC raises one of its two errors or responds. -/
theorem exec_dec_completes (line : Str) : ∃ t, exec (.dec line) s = .next t := by
  obtain ⟨-, h⟩ | ⟨f, -, -, h⟩ | ⟨f, -, -, h⟩ := execDec_cases line s
  · exact ⟨_, h⟩
  · exact ⟨_, h⟩
  · exact ⟨_, h⟩

end

/-- Settles O49: by cases on the instruction; only ENCCMD, which packs the digital intents of CMD, needs the
hypothesis. -/
theorem everyInstructionCompletes : Obligations.EveryInstructionCompletes := by
  intro i s hadmit
  cases i with
  | setd l => exact exec_setd_completes s l
  | seta l => exact exec_seta_completes s l
  | enccmd => exact respondFrame_completes s s.cmd.addr s.cmd.analog hadmit
  | enc d a addr => exact exec_enc_completes s d a addr
  | dec line => exact exec_dec_completes s line
  | csum | hexb | setadr | rdcmd | wcfg | rdcfg => exact ⟨_, rfl⟩
  | frameChangeOutput | frameStatusNotify => exact ⟨_, rfl⟩

end Sys2Proof.Proofs
end

section
/-! PROOFS. Lines and frames there and back (44_framer.md §3, 20_memory.md §5, 40_checksum.md §3). -/

open Sys2Proof Sys2Proof.Machine Sys2Proof.Claims

namespace Sys2Proof.Proofs

/-! ### Rendering, then parsing -/

/-- R9, R202: the digits of a body do not end with CR LF, because LF is no digit. -/
theorem not_endMarker_suffix_hexBody (b : List Byte) : ¬ endMarker <:+ hexBody b := by
  intro hsuffix
  have hmem : charLF ∈ hexBody b := hsuffix.subset (by simp [endMarker])
  obtain ⟨n, hn, hdigit⟩ := hexVal_of_mem_hexBody b charLF hmem
  have hval : hexVal charLF = some n := by rw [hdigit, hexVal_hexDigit n hn]
  have hnone : hexVal charLF = none := by decide
  rw [hnone] at hval
  cases hval

/-- R202: a line without its CR LF loses its start marker alone. -/
theorem stripMarkers_cons_hexBody (b : List Byte) : stripMarkers (startMarker :: hexBody b) = hexBody b := by
  rw [stripMarkers, stripStart_cons, stripEnd_of_not_suffix (not_endMarker_suffix_hexBody b)]

/-- R200: the CR LF stands behind the start marker and the digits. -/
theorem renderLine_eq_append (b : List Byte) : renderLine b = (startMarker :: hexBody b) ++ endMarker := rfl

/-- R202: what the transport leaves of a line when it strips the CR LF. -/
theorem stripEnd_renderLine (b : List Byte) : stripEnd (renderLine b) = startMarker :: hexBody b := by
  rw [renderLine_eq_append, stripEnd_append_endMarker]

/-- R200: the last two characters of a line are the CR LF. -/
theorem take_renderLine (b : List Byte) :
    (renderLine b).take ((renderLine b).length - 2) = startMarker :: hexBody b := by
  have hlen : (renderLine b).length - 2 = (startMarker :: hexBody b).length := by
    rw [renderLine_length, List.length_cons, hexBody_length]
    omega
  rw [hlen, renderLine_eq_append, List.take_left]

/-- R203: a line whose markers enclose the digits of 24 bytes parses to them. -/
theorem parseLine_of_stripMarkers {line : Str} {b : List Byte} (hlen : b.length = 24)
    (hstrip : stripMarkers line = hexBody b) : parseLine line = some b := by
  rw [parseLine_eq_some_iff, hstrip, hexBody_length, hlen]
  exact ⟨rfl, parsePairs_hexBody b⟩

/-- R202, R203: a rendered line parses with its CR LF. -/
theorem parseLine_renderLine {b : List Byte} (hlen : b.length = 24) : parseLine (renderLine b) = some b :=
  parseLine_of_stripMarkers hlen (stripMarkers_renderLine b)

/-- R202, R203: a rendered line parses without its CR LF. -/
theorem parseLine_cons_hexBody {b : List Byte} (hlen : b.length = 24) :
    parseLine (startMarker :: hexBody b) = some b :=
  parseLine_of_stripMarkers hlen (stripMarkers_cons_hexBody b)

/-- Settles O30: either form of the line is stripped to the digits, whose pairs are the bytes. -/
theorem parsingInvertsRendering : Obligations.ParsingInvertsRendering := by
  intro b hlen
  rw [take_renderLine]
  exact ⟨parseLine_renderLine hlen, parseLine_cons_hexBody hlen⟩

end Sys2Proof.Proofs
end

section
/-! PROOFS. Decoding inverts encoding (30_encoding.md §1), so a request that encodes an instruction is performed as it; the
rows of the operation map, the written pseudo-instructions and the response codes. -/

open Sys2Proof Sys2Proof.Machine Sys2Proof.Claims

namespace Sys2Proof.Proofs

/-! ### Requests and instructions -/

/-- R62, and notes/assumptions/4.md for the two wire-frame rows: the request of an instruction decodes to it. -/
theorem decode_encode (i : Instr) : decode (encode i) = .ok i := by
  cases i with
  | csum bytes => exact decode_csum bytes
  | hexb v => exact decode_hexb v
  | setd l => exact decode_setd l
  | seta l => exact decode_seta l
  | setadr a => exact decode_setadr a
  | rdcmd => exact decode_rdcmd
  | enccmd => exact decode_enccmd
  | enc d a addr => exact decode_enc d a addr
  | dec line => exact decode_dec line
  | wcfg v => exact decode_wcfg v
  | rdcfg => exact decode_rdcfg
  | frameChangeOutput | frameStatusNotify => rfl

/-- R60 to R62: an operation's request has the record its header asks for. -/
theorem headerOperandTypes_encode {i : Instr} (h : i.isOperation = true) :
    headerOperandTypes (encode i).header = some ((encode i).operands.map Operand.type) := by
  cases i with
  | csum bytes => exact Laws.OperandRecord.csum bytes
  | hexb v => exact Laws.OperandRecord.hexb v
  | setd l => exact Laws.OperandRecord.setd l
  | seta l => exact Laws.OperandRecord.seta l
  | setadr a => exact Laws.OperandRecord.setadr a
  | rdcmd => exact Laws.OperandRecord.rdcmd
  | enccmd => exact Laws.OperandRecord.enccmd
  | enc d a addr => exact Laws.OperandRecord.enc d a addr
  | dec line => exact Laws.OperandRecord.dec line
  | wcfg v => exact Laws.OperandRecord.wcfg v
  | rdcfg => exact Laws.OperandRecord.rdcfg
  | frameChangeOutput | frameStatusNotify => cases h

/-- R63: an operation's request is well formed. -/
theorem encode_wellFormed {i : Instr} (h : i.wellFormed = true) : (encode i).wellFormed = true :=
  beq_iff_eq.mpr (headerOperandTypes_encode h)

/-- Settles O39: by cases on the instruction one way, and by the operand types of the header the other way. -/
theorem decodeAndEncodeAgree : Obligations.DecodeAndEncodeAgree :=
  ⟨decode_encode, fun _ => encode_wellFormed, fun _ => decode_of_wellFormed⟩

/-- R62: the request of an instruction is performed as it. -/
theorem performRequest_encode (i : Instr) (s : State) : performRequest (encode i) s = exec i s :=
  performRequest_of_decode_ok s (decode_encode i)

/-! ### The rows of the tables -/

/-- Settles O40: each row is its operation's decoding, on the record written there. -/
theorem operationMapWordsDecode : Obligations.OperationMapWordsDecode :=
  ⟨decode_csum _, decode_hexb _, decode_setd _, decode_seta _, decode_setadr _, decode_rdcmd, decode_enccmd,
    decode_enc _ _ _, decode_dec _, decode_wcfg _, decode_rdcfg⟩

/-- Settles O41: the meaning of both rows is to raise IllegalOperation. -/
theorem wireFrameRowsAreNoRequests : Obligations.WireFrameRowsAreNoRequests := fun _ => ⟨rfl, rfl⟩

/-- Settles O42, by assembling each of the three lines. -/
theorem pseudoInstructionsStandForTheirRequests : Obligations.PseudoInstructionsStandForTheirRequests := by
  unfold Obligations.PseudoInstructionsStandForTheirRequests
  decide

/-- R221: each number names the code it is of. -/
theorem responseCodeOfNumber_number (c : ResponseCode) : responseCodeOfNumber c.number = some c := by
  cases c with
  | ok | invalidChannelCount | malformedFrame | checksumMismatch | undefinedLqi | illegalOperation => rfl

/-- Settles O43: the numbers stand in `ResponseCode.number`, and 6 and 7 are none of them. -/
theorem responseCodesHaveTheirNumbers : Obligations.ResponseCodesHaveTheirNumbers :=
  ⟨rfl, rfl, rfl, rfl, rfl, rfl, responseCodeOfNumber_number, rfl, rfl⟩

end Sys2Proof.Proofs
end

section
/-! PROOFS. Accepting an input and performing it (20_memory.md R46, R47): `acceptFrom_eq_some_iff` says what acceptance
does, `stepLane_eq_performInput` what the step of a lane is, and `accepts_iff` what an accept order may do next. -/

open Sys2Proof Sys2Proof.Machine Sys2Proof.Claims

namespace Sys2Proof.Proofs

/-! ### Accepting the front of a lane -/

section
variable {s t : State} {k : Nat} {x : PortInput} {rest : List PortInput}

/-- R47: acceptance gives the front of lane k and the state without it. -/
theorem acceptFrom_eq_some_iff {s' : State} :
    acceptFrom k s = some (x, s') ↔ ∃ rest, s.lanes[k]? = some (x :: rest) ∧ s' = acceptedFrom k rest s := by
  unfold acceptFrom
  constructor
  · intro h
    split at h
    · cases h
    · next y lanes htake =>
      obtain ⟨rest, hfront, rfl⟩ := (takeInput_eq_some_iff _ _ _ _).mp htake
      cases h
      exact ⟨rest, hfront, rfl⟩
  · rintro ⟨rest, hfront, rfl⟩
    rw [(takeInput_eq_some_iff _ _ _ _).mpr ⟨rest, hfront, rfl⟩]
    rfl

/-- Settles O50: `acceptedFrom` is the state the statement writes out. -/
theorem acceptTakesTheFrontOfOneLane : Obligations.AcceptTakesTheFrontOfOneLane := fun _ _ _ _ =>
  acceptFrom_eq_some_iff

/-- R46: a lane is ready when something waits at its front. -/
theorem mem_readyLanes_iff : k ∈ readyLanes s ↔ ∃ x rest, s.lanes[k]? = some (x :: rest) := by
  simp [readyLanes, mem_readyFrom_iff]

/-! ### The step of a lane and of the machine -/

/-- R47: the step of a lane performs the lane's front. -/
theorem stepLane_eq_performInput (h : s.lanes[k]? = some (x :: rest)) :
    stepLane k s = performInput x (acceptedFrom k rest s) := by
  rw [stepLane, acceptFrom_eq_some_iff.mpr ⟨rest, h, rfl⟩]

theorem step_of_pickLane (h : pickLane s = some k) : step s = stepLane k s := by
  rw [step, stepPort, h]

theorem step_of_pickLane_none (h : pickLane s = none) : step s = .next s := by
  rw [step, stepPort, h]

/-- R46, and notes/assumptions/6.md for the idle step: what the machine's step can be. -/
theorem step_cases (s : State) :
    (readyLanes s = [] ∧ step s = .next s) ∨ ∃ k ∈ readyLanes s, step s = stepLane k s := by
  obtain ⟨hidle, hnone⟩ | ⟨k, hk, hpick⟩ := pickLane_cases s
  · exact .inl ⟨hidle, step_of_pickLane_none hnone⟩
  · exact .inr ⟨k, hk, step_of_pickLane hpick⟩

/-- R46: a step that answers changes nothing, with nothing waiting, or is one of the accept relation. -/
theorem step_next_cases (h : step s = .next t) : (readyLanes s = [] ∧ t = s) ∨ Accepts s t := by
  obtain ⟨hidle, hstep⟩ | ⟨k, hk, hstep⟩ := step_cases s
  · exact .inl ⟨hidle, Host.Outcome.next.inj (h.symm.trans hstep)⟩
  · exact .inr ⟨k, hk, hstep.symm.trans h⟩

/-- Settles O51, by `step_cases`: the machine's step is idle or takes a ready lane. -/
theorem stepAcceptsSomeReadyLane : Obligations.StepAcceptsSomeReadyLane := by
  refine fun s => ⟨fun k => mem_readyLanes_iff, fun hidle => ?_, fun hready => ?_, fun t => step_next_cases⟩
  · obtain ⟨-, hstep⟩ | ⟨k, hk, -⟩ := step_cases s
    · exact hstep
    · simp [hidle] at hk
  · exact (step_cases s).resolve_left fun hidle => hready hidle.1

/-- R46, R47: the accept relation performs the front of some lane on the state after its acceptance. -/
theorem accepts_iff : Accepts s t ↔
    ∃ k x rest, s.lanes[k]? = some (x :: rest) ∧ performInput x (acceptedFrom k rest s) = .next t := by
  constructor
  · rintro ⟨k, hk, hstep⟩
    obtain ⟨x, rest, hfront⟩ := mem_readyLanes_iff.mp hk
    exact ⟨k, x, rest, hfront, stepLane_eq_performInput hfront ▸ hstep⟩
  · rintro ⟨k, x, rest, hfront, hperform⟩
    exact ⟨k, mem_readyLanes_iff.mpr ⟨x, rest, hfront⟩, (stepLane_eq_performInput hfront).trans hperform⟩

/-! ### Performing a request -/

/-- Settles O52: `stepLane_eq_performInput`, with the two readings of a decoded request. -/
theorem stepPerformsTheDecodedInstruction : Obligations.StepPerformsTheDecodedInstruction := by
  intro s k x rest hfront
  refine ⟨stepLane_eq_performInput hfront, fun hpick => ?_, ?_⟩
  · rw [step_of_pickLane hpick, stepLane_eq_performInput hfront]
  · rintro r rfl
    exact ⟨rfl, fun i hdecode => performRequest_of_decode_ok _ hdecode,
      fun hillegal => performRequest_of_decode_illegal _ hillegal⟩

/-- notes/assumptions/5.md: the instruction of a table word is that of the word's request. -/
theorem decodeTableWord_eq_some {w : Nat} {i : Instr} (h : decodeTableWord 8 w = some i) :
    w < 256 ∧ decode (tableRequest w) = .ok i := by
  unfold decodeTableWord at h
  split at h
  · next hword =>
    split at h
    · next j hj =>
      cases h
      exact ⟨hword.2, hj⟩
    · cases h
  · cases h

/-- notes/assumptions/5.md: a request alone on the port is the next one performed. -/
theorem step_present (r : Request) (s : State) :
    step (present r s) = performRequest r (acceptedFrom 0 [] (present r s)) := by
  have hpick : pickLane (present r s) = some 0 := rfl
  have hfront : (present r s).lanes[0]? = some [.request r] := rfl
  rw [step_of_pickLane hpick, stepLane_eq_performInput hfront]
  rfl

/-- Settles O53: the word's request is alone on the port, so the step performs it. -/
theorem placedTableWordIsPerformedNext : Obligations.PlacedTableWordIsPerformedNext := by
  intro s w i h
  obtain ⟨hw, hdecode⟩ := decodeTableWord_eq_some h
  have hplaced : s.withFetchWord 8 w = present (tableRequest w) s := if_pos ⟨rfl, hw⟩
  rw [hplaced, step_present, performRequest_of_decode_ok _ hdecode]
  rfl

/-- R61, R63: a request that is answered is performed as some instruction: IllegalOperation is also what the wire-frame
rows answer, and a record the port does not carry has no answer. -/
theorem exists_exec_of_performRequest {r : Request} (h : performRequest r s = .next t) :
    ∃ i, exec i s = .next t := by
  unfold performRequest at h
  split at h
  · next i _ => exact ⟨i, h⟩
  · exact ⟨.frameChangeOutput, h⟩
  · cases h

end

end Sys2Proof.Proofs
end

section
/-! PROOFS. What every run keeps (10_state.md R25, R31; 20_memory.md §4; 60_exceptions.md R220): one induction over the
accept order, `run_induction`, and for each property the step lemma it asks for. -/

open Sys2Proof Sys2Proof.Machine Sys2Proof.Claims

namespace Sys2Proof.Proofs

/-- What an accepted input keeps holds at the end of every run. -/
theorem run_induction {P : State → Prop} (hstep : ∀ s t, P s → Accepts s t → P t) {s t : State} (hrun : Run s t)
    (hs : P s) : P t := by
  induction hrun with
  | none => exact hs
  | more t u _ haccept ih => exact hstep t u ih haccept

/-! ### What waits on the port -/

/-- Every input that waits on the port has the property. -/
def AllWaiting (p : PortInput → Prop) (s : State) : Prop := ∀ lane ∈ s.lanes, ∀ x ∈ lane, p x

/-- R63, over the inputs that wait. -/
theorem portTyped_iff_allWaiting (s : State) :
    s.portTyped = true ↔ AllWaiting (fun x => x.portTyped = true) s := by
  simp [State.portTyped, AllWaiting]

theorem noReset_iff_allWaiting (s : State) : noReset s ↔ AllWaiting (· ≠ .reset) s := by
  exact forall₂_congr fun lane _ => ⟨fun h x hx hreset => h (hreset ▸ hx), fun h hmem => h _ hmem rfl⟩

section
variable {p : PortInput → Prop} {s : State} {k : Nat} {x : PortInput} {rest : List PortInput}

theorem AllWaiting.of_lanes_eq {t : State} (h : AllWaiting p s) (hlanes : t.lanes = s.lanes) : AllWaiting p t := by
  rwa [AllWaiting, hlanes]

/-- The input accepted waited on the port. -/
theorem AllWaiting.front (h : AllWaiting p s) (hfront : s.lanes[k]? = some (x :: rest)) : p x :=
  h _ (List.mem_of_getElem? hfront) x List.mem_cons_self

/-- What waits after an acceptance waited before it. -/
theorem AllWaiting.acceptedFrom (h : AllWaiting p s) (hfront : s.lanes[k]? = some (x :: rest)) :
    AllWaiting p (acceptedFrom k rest s) := by
  intro lane hlane y hy
  obtain hlane | rfl := List.mem_or_eq_of_mem_set hlane
  · exact h lane hlane y hy
  · exact h _ (List.mem_of_getElem? hfront) y (List.mem_cons_of_mem x hy)

end

/-! ### The invariant -/

/-- R125: what SETD leaves in CMD is admitted, if what was there is. -/
theorem admitAll_of_exec_setd {l : List Intent} {s t : State} (h : exec (.setd l) s = .next t)
    (hs : admitAll s.cmd.digital = true) : admitAll t.cmd.digital = true := by
  cases hl : channels l with
  | none =>
    rw [exec_setd_of_channels_none s hl, raise_eq_next_iff] at h
    rwa [h, answer_cmd]
  | some d =>
    by_cases hd : admitAll d = true
    · rw [exec_setd_of_admitted s hl hd, respond_eq_next_iff] at h
      rwa [h, answer_cmd, setDigital_digital]
    · rw [exec_setd_of_not_admitted s hl hd, refuse_eq_next_iff] at h
      rwa [h, markRefused_cmd]

/-- R25: every operation keeps the stored digital intents admitted, since SETD alone writes them. -/
theorem admitAll_of_exec {i : Instr} {s t : State} (h : exec i s = .next t) (hs : admitAll s.cmd.digital = true) :
    admitAll t.cmd.digital = true := by
  by_cases hsame : t.cmd.digital = s.cmd.digital
  · rwa [hsame]
  · obtain ⟨-, hsetd, -⟩ := exec_frame h
    obtain ⟨l, rfl⟩ := hsetd hsame
    exact admitAll_of_exec_setd h hs

/-- R220, R221, R223: the responses an operation leaves are shaped, if those before it are. -/
theorem shaped_of_exec {i : Instr} {s t : State} (h : exec i s = .next t)
    (hs : s.responses.all Response.shaped = true) : t.responses.all Response.shaped = true := by
  obtain rfl | ⟨code, payload, hresp, -, hreserved, -, herror⟩ := everyOperationAnswersOnceOrIsRefused i s t h
  · exact hs
  · have hempty : code = .ok ∨ payload = .empty := or_iff_not_imp_left.mpr fun hcode => (herror hcode).1
    simp [hresp, hs, Response.shaped, hreserved, hempty]

theorem exec_lanes {i : Instr} {s t : State} (h : exec i s = .next t) : t.lanes = s.lanes := by
  obtain ⟨-, -, -, -, -, hlanes, -⟩ := exec_frame h
  exact hlanes

theorem portTyped_of_lanes_eq {s t : State} (hlanes : t.lanes = s.lanes) (hs : s.portTyped = true) :
    t.portTyped = true := by
  rwa [State.portTyped, hlanes]

/-- R25, R220, R63: every operation keeps the invariant. -/
theorem inv_of_exec {i : Instr} {s t : State} (h : exec i s = .next t) (hs : s.Inv) : t.Inv := by
  obtain ⟨hadmit, hshaped, htyped⟩ := hs
  exact ⟨admitAll_of_exec h hadmit, shaped_of_exec h hshaped, portTyped_of_lanes_eq (exec_lanes h) htyped⟩

/-! ### The reset event -/

/-- Settles O55: each value of the table is the field's in `State.reset`. -/
theorem resetStateHoldsTheResetTable : Obligations.ResetStateHoldsTheResetTable :=
  ⟨rfl, by simp [quadList, State.reset], by simp [quadList, State.reset], rfl, rfl, rfl, rfl, rfl, rfl⟩

/-- Settles O56: the registers take the reset state's values and the run's record is emptied. -/
theorem resetInputWritesTheResetTable : Obligations.ResetInputWritesTheResetTable := fun s =>
  ⟨beginRun (resetRegisters s), rfl, rfl, rfl, rfl, rfl, rfl⟩

/-- Settles O57: the reset intents are numbers, and nothing is answered or waiting. -/
theorem invariantHoldsAtReset : Obligations.InvariantHoldsAtReset :=
  ⟨rfl, rfl, rfl⟩

/-- R240: the reset event leaves the invariant, whatever the registers and responses were. -/
theorem inv_of_reset {s : State} (htyped : s.portTyped = true) : (beginRun (resetRegisters s)).Inv := by
  obtain ⟨hadmit, -⟩ : State.reset.Inv := invariantHoldsAtReset
  exact ⟨hadmit, rfl, portTyped_of_lanes_eq rfl htyped⟩

/-! ### Every step -/

/-- Every input keeps the invariant. -/
theorem inv_of_performInput {x : PortInput} {s t : State} (h : performInput x s = .next t) (hs : s.Inv) : t.Inv := by
  cases x with
  | request r =>
    obtain ⟨i, hi⟩ := exists_exec_of_performRequest h
    exact inv_of_exec hi hs
  | reset =>
    cases h
    obtain ⟨-, -, htyped⟩ := hs
    exact inv_of_reset htyped

/-- Accepting an input keeps the invariant. -/
theorem inv_of_acceptedFrom {s : State} {k : Nat} {x : PortInput} {rest : List PortInput} (hs : s.Inv)
    (hfront : s.lanes[k]? = some (x :: rest)) : (acceptedFrom k rest s).Inv := by
  obtain ⟨hadmit, hshaped, htyped⟩ := hs
  rw [portTyped_iff_allWaiting] at htyped
  exact ⟨hadmit, hshaped, (portTyped_iff_allWaiting _).mpr (htyped.acceptedFrom hfront)⟩

/-- Accepting and performing an input of any lane keeps the invariant. -/
theorem inv_of_accepts {s t : State} (hs : s.Inv) (h : Accepts s t) : t.Inv := by
  obtain ⟨k, x, rest, hfront, hperform⟩ := accepts_iff.mp h
  exact inv_of_performInput hperform (inv_of_acceptedFrom hs hfront)

/-- Settles O58: a step changes nothing or is one of the accept relation, which keeps the invariant. -/
theorem stepKeepsTheInvariant : Obligations.StepKeepsTheInvariant := by
  intro s t hs h
  obtain ⟨-, rfl⟩ | haccept := step_next_cases h
  · exact hs
  · exact inv_of_accepts hs haccept

/-! ### Completion -/

/-- R245: a request the port carries completes. -/
theorem performRequest_completes {r : Request} {s : State} (htyped : r.portTyped = true)
    (hadmit : admitAll s.cmd.digital = true) : ∃ t, performRequest r s = .next t := by
  by_cases hnone : headerOperandTypes r.header = none
  · exact ⟨_, performRequest_of_headerOperandTypes_none s hnone⟩
  · obtain ⟨i, -, hdecode, -⟩ := decode_of_wellFormed (wellFormed_of_portTyped htyped hnone)
    rw [performRequest_of_decode_ok s hdecode]
    exact everyInstructionCompletes i s hadmit

/-- R241, R245: an input the port carries completes. -/
theorem performInput_completes {x : PortInput} {s : State} (htyped : x.portTyped = true)
    (hadmit : admitAll s.cmd.digital = true) : ∃ t, performInput x s = .next t := by
  cases x with
  | request r => exact performRequest_completes htyped hadmit
  | reset => exact ⟨_, rfl⟩

/-- R245: under the invariant the step of every ready lane completes. -/
theorem stepLane_completes {s : State} (hs : s.Inv) {k : Nat} (hk : k ∈ readyLanes s) :
    ∃ t, stepLane k s = .next t := by
  obtain ⟨hadmit, -, htyped⟩ := hs
  obtain ⟨x, rest, hfront⟩ := mem_readyLanes_iff.mp hk
  rw [stepLane_eq_performInput hfront]
  exact performInput_completes (((portTyped_iff_allWaiting s).mp htyped).front hfront) hadmit

/-- R245: under the invariant the machine's step completes. -/
theorem step_completes {s : State} (hs : s.Inv) : ∃ t, step s = .next t := by
  obtain ⟨-, hstep⟩ | ⟨k, hk, hstep⟩ := step_cases s
  · exact ⟨s, hstep⟩
  · rw [hstep]
    exact stepLane_completes hs hk

/-- Settles O59: the run keeps the invariant by induction over the accept order, and under it every lane completes. -/
theorem everyInterleavingKeepsTheInvariantAndCompletes :
    Obligations.EveryInterleavingKeepsTheInvariantAndCompletes := by
  intro s t hs hrun
  have ht : t.Inv := run_induction (fun _ _ => inv_of_accepts) hrun hs
  exact ⟨ht, fun k => stepLane_completes ht, step_completes ht⟩

end Sys2Proof.Proofs
end

section
/-! PROOFS. What the spec derives of bytes and frames: 40_checksum.md §3, 30_encoding.md §3, 42_packer.md §5,
20_memory.md §2 and §5. -/

open Sys2Proof Sys2Proof.Machine Sys2Proof.Claims

namespace Sys2Proof.Proofs

/-! ### Hex bytes and checksums -/

/-- R101: the two digits of an integer are those of its byte. -/
theorem toHexByte_byteOfInt (v : Int) : toHexByte (intOfByte (byteOfInt v)) = toHexByte v := by
  have hvalue : intOfByte (byteOfInt v) = v % 256 := byteOfInt_toNat v
  rw [hvalue, toHexByte, toHexByte, Int.emod_emod]

/-- Settles O4: the integer's byte has the same digits, which parse to it. -/
theorem hexByteReparsesToItself : Obligations.HexByteReparsesToItself := by
  intro v
  have hdigits := toHexByte_intOfByte (byteOfInt v)
  exact ⟨_, _, byteOfInt v, (toHexByte_byteOfInt v).symm.trans hdigits, parseHexByte_digits _, byteOfInt_toNat v,
    hdigits⟩

/-- R105, R144: an outbound frame ends with the checksum of its other bytes. -/
theorem sumOf_bytes_changeOutput (f : ChangeOutputFrame) : sumOf f.bytes % 256 = 0 :=
  (checksumBytes_eq_iff f.body _).mp rfl

/-- Settles O19: an assembled frame is the bytes of a change-output frame; inbound, with CHKEN set the sum decides. -/
theorem framesSumToZero : Obligations.FramesSumToZero := by
  refine ⟨fun addr d a b hassemble => ?_, fun f => ?_⟩
  · obtain ⟨f, -, rfl⟩ := Option.map_eq_some_iff.mp hassemble
    exact sumOf_bytes_changeOutput f
  · simp [checkOK_iff]

/-! ### Digital levels and PWM pairs -/

/-- R7, R140: the level of a whole number is its own parity. -/
theorem digitalLane_fin_intCast {n : Int} (h : 0 ≤ n) : digitalLane (.fin (n : Rat)) = some (true, n % 2 == 1) := by
  rw [digitalLane_fin_of_nonneg (Int.cast_nonneg h), floorRat_eq_floor, Int.floor_intCast]

/-- R140, R177: a lane that packs -1, 0 or 1 unpacks to it. -/
theorem unpackDigitalLane_of_digitalLane {n : Int} (hn : n = -1 ∨ n = 0 ∨ n = 1) {levels mask : Byte} {i : Nat}
    (h : digitalLane (.fin (n : Rat)) = some (mask.getLsbD i, levels.getLsbD i)) :
    unpackDigitalLane levels mask i = n := by
  rw [unpackDigitalLane]
  obtain rfl | hn := hn
  · rw [digitalLane_fin_of_neg (by norm_num), Option.some.injEq, Prod.mk.injEq] at h
    obtain ⟨hmask, -⟩ := h
    simp [← hmask]
  · rw [digitalLane_fin_intCast (by omega), Option.some.injEq, Prod.mk.injEq] at h
    obtain ⟨hmask, hlevel⟩ := h
    obtain rfl | rfl := hn
    · simp [← hmask, ← hlevel]
    · simp [← hmask, ← hlevel]

/-- R124: numbers are admitted. -/
theorem admitAll_fin (d : Quad Int) : admitAll (quadMap (fun n : Int => Intent.fin (n : Rat)) d) = true := rfl

theorem quadList_quadMap_getElem? {α β : Type} (f : α → β) {q : Quad α} {i : Nat} {x : α}
    (h : (quadList q)[i]? = some x) : (quadList (quadMap f q))[i]? = some (f x) := by
  have hmap : quadList (quadMap f q) = (quadList q).map f := rfl
  rw [hmap, List.getElem?_map, h, Option.map_some]

/-- Settles O24: each lane's bits in the packed bytes are those the unpacker reads for it. -/
theorem digitalPackAndUnpackAreInverse : Obligations.DigitalPackAndUnpackAreInverse := by
  rintro ⟨n0, n1, n2, n3⟩ hvalues
  obtain ⟨levels, mask, hpack⟩ := exists_packDigital_of_admitAll (admitAll_fin ⟨n0, n1, n2, n3⟩)
  have hlane : ∀ (i : Nat) (n : Int), (quadList (⟨n0, n1, n2, n3⟩ : Quad Int))[i]? = some n →
      unpackDigitalLane levels mask i = n := fun i n hn =>
    unpackDigitalLane_of_digitalLane (hvalues n (List.mem_of_getElem? hn))
      (digitalLane_of_packDigital hpack (quadList_quadMap_getElem? _ hn))
  refine ⟨levels, mask, hpack, ?_⟩
  rw [unpackDigital, hlane 0 n0 rfl, hlane 1 n1 rfl, hlane 2 n2 rfl, hlane 3 n3 rfl]

/-- Settles O25: the two bytes are the quotient and the remainder by 256. -/
theorem pwmPairReadsBackBigEndian : Obligations.PwmPairReadsBackBigEndian := by
  intro n hn
  rw [be16, pwmPair_fst_toNat (by omega), pwmPair_snd_toNat]
  omega

/-- Settles O17: the pair is that of a number of at most 1024, so its high byte is not 0xFF. -/
theorem controlledPairIsNeverTheSentinel : Obligations.ControlledPairIsNeverTheSentinel := by
  intro q h0 h100
  have hbound : pwmScale q ≤ 1024 := pwmScale_le h100
  have hhigh : (packAnalog (.fin q)).1.toNat ≤ 4 := by
    rw [packAnalog_of_controlled h0 h100, pwmPair_fst_toNat (by omega)]
    omega
  refine ⟨hhigh, fun hsentinel => ?_⟩
  simp [hsentinel] at hhigh

/-! ### Fields of several bytes -/

/-- R7: appending a byte to a word multiplies the word by 256. -/
theorem toNat_append_byte {w : Nat} (x : BitVec w) (b : Byte) : (x ++ b).toNat = x.toNat * 256 + b.toNat := by
  rw [BitVec.toNat_append, ← Nat.shiftLeft_add_eq_or_of_lt b.isLt, Nat.shiftLeft_eq]

/-- Settles O37: each byte that follows moves those before it up by 256. -/
theorem multiByteFieldsAreBigEndianUnsigned : Obligations.MultiByteFieldsAreBigEndianUnsigned := by
  refine ⟨fun h l => (toNat_append_byte h l).symm, fun b0 b1 b2 b3 => ?_⟩
  rw [toNat_append_byte, toNat_append_byte, toNat_append_byte, be32]
  omega

/-! ### A received frame -/

/-- R50, R202: a frame's line parses to its bytes, whether or not the transport strips the CR LF. -/
theorem parseLine_of_received {b : List Byte} (hlen : b.length = 24) (leaveEnd : Bool) :
    parseLine (if leaveEnd then renderLine b else stripEnd (renderLine b)) = some b := by
  cases leaveEnd with
  | true => exact parseLine_renderLine hlen
  | false =>
    change parseLine (stripEnd (renderLine b)) = some b
    rw [stripEnd_renderLine]
    exact parseLine_cons_hexBody hlen

/-- Settles O32: the delivered request is DEC of a line that parses to the frame's bytes. -/
theorem receivedFrameIsDecodedWhole : Obligations.ReceivedFrameIsDecodedWhole := by
  intro f leaveEnd s hsum
  rw [deliver, performRequest_encode]
  exact exec_dec_of_sum (parseLine_of_received rfl leaveEnd) (statusNotifyOfBytes_bytes f) hsum

end Sys2Proof.Proofs
end

section
/-! PROOFS. Operations issued after one another (20_memory.md R45, 30_encoding.md §2, 70_reset_and_hazards.md §2).
SETADR, SETD, SETA and WCFG, which write the registers, and ENC read none, so each of them ends in the same way in every
state; the other operations leave the registers they read. -/

open Sys2Proof Sys2Proof.Machine Sys2Proof.Claims

namespace Sys2Proof.Proofs

/-! ### Operations that read no register -/

/-- The operation ends in one and the same way in every state. -/
def EndsAlike (i : Instr) : Prop := ∃ e : Ending, e.AllowedFor i ∧ ∀ s, exec i s = e.on s

theorem endsAlike_setadr (a : Int) : EndsAlike (.setadr a) :=
  ⟨.answers (.addr (byteOfInt a)) .ok .empty, ⟨a, rfl⟩, exec_setadr a⟩

theorem endsAlike_wcfg (v : Byte) : EndsAlike (.wcfg v) :=
  ⟨.answers (.cfg v) .ok .empty, ⟨v, rfl⟩, exec_wcfg v⟩

theorem endsAlike_seta (l : List Intent) : EndsAlike (.seta l) := by
  cases hl : channels l with
  | none =>
    exact ⟨.answers .nothing .invalidChannelCount .empty, trivial, fun s => exec_seta_of_channels_none s hl⟩
  | some a => exact ⟨.answers (.analog a) .ok .empty, ⟨l, rfl⟩, fun s => exec_seta_of_channels s hl⟩

theorem endsAlike_setd (l : List Intent) : EndsAlike (.setd l) := by
  cases hl : channels l with
  | none =>
    exact ⟨.answers .nothing .invalidChannelCount .empty, trivial, fun s => exec_setd_of_channels_none s hl⟩
  | some d =>
    by_cases hadmit : admitAll d = true
    · exact ⟨.answers (.digital d) .ok .empty, ⟨l, rfl⟩, fun s => exec_setd_of_admitted s hl hadmit⟩
    · exact ⟨.refuses, trivial, fun s => exec_setd_of_not_admitted s hl hadmit⟩

/-- R150: ENC's response is made of its operands alone. -/
theorem endsAlike_enc (dl al : List Intent) (addr : Option Int) : EndsAlike (.enc dl al addr) := by
  by_cases hcount : dl.length ≠ 4 ∨ al.length ≠ 4
  · exact ⟨.answers .nothing .invalidChannelCount .empty, trivial, fun s => exec_enc_of_length_ne addr s hcount⟩
  · obtain ⟨hdlen, halen⟩ := not_or.mp hcount
    obtain ⟨d, hd⟩ := exists_channels_of_length_eq (not_not.mp hdlen)
    obtain ⟨a, ha⟩ := exists_channels_of_length_eq (not_not.mp halen)
    by_cases hadmit : admitAll d = true
    · have hsome : (encodeFrame (addressOperand addr) d a).isSome = true := by rwa [encodeFrame_isSome]
      obtain ⟨line, hline⟩ := Option.isSome_iff_exists.mp hsome
      refine ⟨.answers .nothing .ok (.str line), trivial, fun s => ?_⟩
      rw [exec_enc_of_admitted s addr hd ha hadmit, respondFrame, hline]
      rfl
    · exact ⟨.refuses, trivial, fun s => exec_enc_of_not_admitted s addr hd ha hadmit⟩

/-- R150: ENC writes no register. -/
theorem RegisterWrite.AllowedFor.eq_nothing_of_enc {w : RegisterWrite} {d a : List Intent} {addr : Option Int}
    (hw : w.AllowedFor (.enc d a addr)) : w = .nothing := by
  cases w with
  | nothing => rfl
  | addr | digital | analog | cfg =>
    obtain ⟨_, h⟩ := hw
    cases h

/-- Settles O23: the one ending of ENC, which writes nothing, is the same under any registers. -/
theorem encDoesNotReadTheRegisters : Obligations.EncDoesNotReadTheRegisters := by
  intro d a addr s t c g h
  obtain ⟨e, hallowed, hexec⟩ := endsAlike_enc d a addr
  rw [hexec] at h ⊢
  cases e with
  | answers w code payload =>
    obtain rfl := RegisterWrite.AllowedFor.eq_nothing_of_enc hallowed
    cases h
    rfl
  | refuses =>
    cases h
    rfl
  | stops => cases h

/-! ### An operation issued again -/

/-- R45: writing again changes neither register. -/
theorem RegisterWrite.on_on_answer (w : RegisterWrite) (c : ResponseCode) (p : Payload) (s : State) :
    (w.on (answer c p (w.on s))).cmd = (w.on s).cmd ∧ (w.on (answer c p (w.on s))).cfg = (w.on s).cfg := by
  cases w with
  | nothing | addr | digital | analog | cfg => exact ⟨rfl, rfl⟩

/-- R45: the same ending twice in a row. -/
theorem Ending.on_again {e : Ending} {s t : State} (h : e.on s = .next t) :
    ∃ u, e.on t = .next u ∧ u.cmd = t.cmd ∧ u.cfg = t.cfg ∧ u.refused = t.refused ∧ given t u = given s t := by
  cases e with
  | answers w c p =>
    cases h
    obtain ⟨hcmd, hcfg⟩ := w.on_on_answer c p s
    refine ⟨_, rfl, hcmd, hcfg, by simp, ?_⟩
    rw [given_answer (w.on_responses _), given_answer (w.on_responses s)]
  | refuses =>
    cases h
    exact ⟨_, rfl, rfl, rfl, rfl, by simp⟩
  | stops => cases h

theorem EndsAlike.exec_again {i : Instr} (hi : EndsAlike i) {s t : State} (h : exec i s = .next t) :
    ∃ e : Ending, e.on s = .next t ∧ exec i t = e.on t := by
  obtain ⟨e, -, hexec⟩ := hi
  exact ⟨e, (hexec s).symm.trans h, hexec t⟩

/-- R45: an operation ends as it did when it is issued again: it wrote no register, or it is one that reads none. -/
theorem exec_again {i : Instr} {s t : State} (h : exec i s = .next t) :
    ∃ e : Ending, e.on s = .next t ∧ exec i t = e.on t := by
  obtain ⟨e, hallowed, hexec⟩ := exec_hasEnding i s
  have hon : e.on s = .next t := (hexec s ⟨rfl, rfl, rfl⟩).symm.trans h
  cases e with
  | answers w c p =>
    cases w with
    | nothing =>
      cases hon
      exact ⟨_, rfl, hexec _ ⟨rfl, rfl, rfl⟩⟩
    | addr =>
      obtain ⟨a, rfl⟩ := hallowed
      exact (endsAlike_setadr a).exec_again h
    | digital =>
      obtain ⟨l, rfl⟩ := hallowed
      exact (endsAlike_setd l).exec_again h
    | analog =>
      obtain ⟨l, rfl⟩ := hallowed
      exact (endsAlike_seta l).exec_again h
    | cfg =>
      obtain ⟨v, rfl⟩ := hallowed
      exact (endsAlike_wcfg v).exec_again h
  | refuses =>
    cases hon
    exact ⟨_, rfl, hexec _ ⟨rfl, rfl, rfl⟩⟩
  | stops => cases hon

/-- Settles O48: the same ending twice gives the same response and writes the same values. -/
theorem operationsAreIdempotent : Obligations.OperationsAreIdempotent := by
  intro i s t h
  obtain ⟨e, hon, hagain⟩ := exec_again h
  rw [hagain]
  exact Ending.on_again hon

/-! ### Sequences of operations -/

/-- R123: the list of four intents has those as its channels. -/
theorem channels_quadList (d : Quad Intent) : channels (quadList d) = some d :=
  (channels_eq_some_iff _ d).mpr rfl

/-- R125: SETD of admitted intents. -/
theorem exec_setd_quadList {d : Quad Intent} (hadmit : admitAll d = true) (s : State) :
    exec (.setd (quadList d)) s = .next (answered (setDigital d s) .ok .empty) :=
  exec_setd_of_admitted s (channels_quadList d) hadmit

/-- R126: SETA of any four intents. -/
theorem exec_seta_quadList (a : Quad Intent) (s : State) :
    exec (.seta (quadList a)) s = .next (answered (setAnalog a s) .ok .empty) :=
  exec_seta_of_channels s (channels_quadList a)

/-- Settles O12: each request writes its own field of CMD with the reset value and answers once. -/
theorem clrcmdRestoresTheResetCommand : Obligations.ClrcmdRestoresTheResetCommand := by
  intro s
  have haddr : byteOfInt 0x78 = State.reset.cmd.addr := by decide
  refine ⟨_, _, _, rfl, exec_setadr 0x78 s, exec_setd_quadList (d := State.reset.cmd.digital) rfl _,
    exec_seta_quadList State.reset.cmd.analog _, ?_, rfl, rfl, ?_⟩
  · rw [haddr]
    rfl
  · simp [given, answered_eq_answer]

/-- Settles O13: after SETD, CMD holds the admitted d and otherwise what it held. -/
theorem enccmdSeesTheSetdBeforeIt : Obligations.EnccmdSeesTheSetdBeforeIt := by
  intro d s hadmit
  obtain ⟨-, line, hline, hexec⟩ :=
    enccmdEncodesTheCommandRegister (answered (setDigital d s) .ok .empty) hadmit
  refine ⟨_, _, line, exec_setd_quadList hadmit s, hexec, hline, ?_⟩
  simp [given, answered_eq_answer]

end Sys2Proof.Proofs
end

section
/-! PROOFS. What a run without the reset input shows (70_reset_and_hazards.md §3), and one interleaving of three requests
(70_reset_and_hazards.md §2). -/

open Sys2Proof Sys2Proof.Machine Sys2Proof.Claims

namespace Sys2Proof.Proofs

/-! ### Runs without the reset input -/

section
variable {s t : State}

/-- R46: with no reset input waiting, what is accepted is a request, performed as some instruction, and no reset input
waits afterwards. -/
theorem exec_of_noReset (hs : noReset s) {k : Nat} {x : PortInput} {rest : List PortInput}
    (hfront : s.lanes[k]? = some (x :: rest)) (h : performInput x (acceptedFrom k rest s) = .next t) :
    (∃ i, exec i (acceptedFrom k rest s) = .next t) ∧ noReset t := by
  rw [noReset_iff_allWaiting] at hs
  cases x with
  | request r =>
    obtain ⟨i, hi⟩ := exists_exec_of_performRequest h
    have ht : AllWaiting (· ≠ .reset) t := (hs.acceptedFrom hfront).of_lanes_eq (exec_lanes hi)
    exact ⟨⟨i, hi⟩, (noReset_iff_allWaiting t).mpr ht⟩
  | reset => exact absurd rfl (hs.front hfront)

/-- R228, R246: a refused state shows nothing. -/
theorem shown_of_refused (h : s.refused = true) : s.shown = none := if_pos h

/-- R246: a state without the mark shows its responses and its registers. -/
theorem shown_of_not_refused (h : s.refused = false) : s.shown = some (s.responses, s.cmd, s.cfg) := by
  simp [State.shown, h]

/-- R31: no operation clears the mark. -/
theorem refused_of_exec {i : Instr} (h : exec i s = .next t) (hs : s.refused = true) : t.refused = true := by
  obtain ⟨hkeeps, -⟩ := refusalIsOnlyForNonNumericDigitalIntents i s t h
  exact hkeeps hs

/-- R31: an accepted request does not clear the mark. -/
theorem refused_of_accepts (hs : noReset s) (h : Accepts s t) (hrefused : s.refused = true) : t.refused = true := by
  obtain ⟨k, x, rest, hfront, hperform⟩ := accepts_iff.mp h
  obtain ⟨⟨i, hi⟩, -⟩ := exec_of_noReset hs hfront hperform
  exact refused_of_exec hi hrefused

theorem noReset_of_accepts (hs : noReset s) (h : Accepts s t) : noReset t := by
  obtain ⟨k, x, rest, hfront, hperform⟩ := accepts_iff.mp h
  obtain ⟨-, ht⟩ := exec_of_noReset hs hfront hperform
  exact ht

/-- Settles O46: no accepted request clears the mark or puts a reset input on the port. -/
theorem refusedRunsShowNothing : Obligations.RefusedRunsShowNothing := by
  intro s t hrefused hs hrun
  obtain ⟨-, ht⟩ : noReset t ∧ t.refused = true :=
    run_induction (P := fun s => noReset s ∧ s.refused = true)
      (fun _ _ ⟨hs, hrefused⟩ h => ⟨noReset_of_accepts hs h, refused_of_accepts hs h hrefused⟩) hrun ⟨hs, hrefused⟩
  exact ⟨ht, shown_of_refused ht⟩

/-! ### One response for each accepted request -/

/-- R220: an operation that leaves the mark clear answers once, to the requester it serves. -/
theorem responses_of_exec {i : Instr} (h : exec i s = .next t) (ht : t.refused = false) :
    ∃ code payload, t.responses = s.responses ++ [⟨s.serving, code, payload⟩] := by
  obtain rfl | ⟨code, payload, hresp, -⟩ := everyOperationAnswersOnceOrIsRefused i s t h
  · cases ht
  · exact ⟨code, payload, hresp⟩

/-- R220: an accepted request that leaves the mark clear is answered once, to its lane. -/
theorem responses_of_performInput (hs : noReset s) {k : Nat} {x : PortInput} {rest : List PortInput}
    (hfront : s.lanes[k]? = some (x :: rest)) (h : performInput x (acceptedFrom k rest s) = .next t)
    (ht : t.refused = false) : ∃ code payload, t.responses = s.responses ++ [⟨k, code, payload⟩] := by
  obtain ⟨⟨i, hi⟩, -⟩ := exec_of_noReset hs hfront h
  exact responses_of_exec hi ht

/-- R220, R246: since s, t has accepted as many inputs as it has given responses, each to a lane of s. -/
def AnsweredSince (s t : State) : Prop :=
  ∃ added : List Response, t.responses = s.responses ++ added ∧ t.accepts = s.accepts + added.length ∧
    ∀ r ∈ added, r.requester < s.lanes.length

/-- What a run from s keeps where no reset input waits: the lanes of s, and, while the mark is clear, one response for
each accepted request. -/
structure RunFrom (s t : State) : Prop where
  noReset  : noReset t
  lanes    : t.lanes.length = s.lanes.length
  answered : t.refused = false → AnsweredSince s t

theorem RunFrom.refl (hs : Claims.noReset s) : RunFrom s s :=
  ⟨hs, rfl, fun _ => ⟨[], by simp, by simp, by simp⟩⟩

/-- R220: the response of an accepted request follows those given since s. -/
theorem AnsweredSince.append {u : State} (h : AnsweredSince s t) (r : Response)
    (hresp : u.responses = t.responses ++ [r]) (haccepts : u.accepts = t.accepts + 1)
    (hlane : r.requester < s.lanes.length) : AnsweredSince s u := by
  obtain ⟨added, hadded, hcount, hlanes⟩ := h
  refine ⟨added ++ [r], ?_, ?_, ?_⟩
  · rw [hresp, hadded, List.append_assoc]
  · rw [haccepts, hcount, List.length_append, List.length_singleton, Nat.add_assoc]
  · simpa [or_imp, forall_and, hlane] using hlanes

theorem RunFrom.accepts {u : State} (ht : RunFrom s t) (h : Accepts t u) : RunFrom s u := by
  obtain ⟨hnoReset, hlanes, hanswered⟩ := ht
  obtain ⟨k, x, rest, hfront, hperform⟩ := accepts_iff.mp h
  obtain ⟨⟨i, hi⟩, hu⟩ := exec_of_noReset hnoReset hfront hperform
  obtain ⟨-, -, -, -, -, hulanes, hucount, -⟩ := exec_frame hi
  obtain ⟨hk, -⟩ := List.getElem?_eq_some_iff.mp hfront
  refine ⟨hu, by simp [hulanes, acceptedFrom, hlanes], fun hclear => ?_⟩
  have htclear : t.refused = false := by
    rw [Bool.eq_false_iff]
    intro hset
    have huset : u.refused = true := refused_of_accepts hnoReset h hset
    simp [huset] at hclear
  obtain ⟨code, payload, hresp⟩ := responses_of_exec hi hclear
  exact (hanswered htclear).append _ hresp hucount (hlanes ▸ hk)

/-- Settles O60: a request answers once, and over a run the answers and the acceptances are counted together. -/
theorem unrefusedRunsShowOneResponsePerRequest : Obligations.UnrefusedRunsShowOneResponsePerRequest := by
  refine ⟨fun s => shown_of_not_refused, fun s t k hs hk hstep ht => ?_, fun s t hs hrun ht => ?_⟩
  · obtain ⟨x, rest, hfront⟩ := mem_readyLanes_iff.mp hk
    rw [stepLane_eq_performInput hfront] at hstep
    obtain ⟨code, payload, hresp⟩ := responses_of_performInput hs hfront hstep ht
    exact ⟨code, payload, by rw [shown_of_not_refused ht, hresp]⟩
  · have hkept : RunFrom s t := run_induction (fun _ _ => RunFrom.accepts) hrun (.refl hs)
    obtain ⟨added, hresp, hcount, hlanes⟩ := hkept.answered ht
    exact ⟨added, by rw [shown_of_not_refused ht, hresp], hcount, hlanes⟩

/-! ### Another SETD between SETD and ENCCMD -/

/-- R46: a run may go on with the request at the front of any lane. -/
theorem run_request {k : Nat} {i : Instr} {rest : List PortInput} {u : State} (hrun : Run s t)
    (hfront : t.lanes[k]? = some (.request (encode i) :: rest)) (h : exec i (acceptedFrom k rest t) = .next u) :
    Run s u :=
  .more s t u hrun (accepts_iff.mpr ⟨k, _, rest, hfront, (performRequest_encode i _).trans h⟩)

/-- R125: the state after lane k's SETD of d is accepted and answered. -/
def afterSetd (k : Nat) (rest : List PortInput) (d : Quad Intent) (s : State) : State :=
  answered (setDigital d (acceptedFrom k rest s)) .ok .empty

/-- R46: the second lane's SETD is accepted between the SETD and the ENCCMD of the first. -/
theorem exists_run_setd_setd_enccmd {d e : Quad Intent} (hd : admitAll d = true) (he : admitAll e = true)
    (hlanes : s.lanes = [[.request (encode (.setd (quadList d))), .request (encode .enccmd)],
      [.request (encode (.setd (quadList e)))]]) :
    ∃ (t : State) (line : Str), Run s t ∧ encodeFrame s.cmd.addr e s.cmd.analog = some line ∧
      t.responses = s.responses ++ [⟨0, .ok, .empty⟩, ⟨1, .ok, .empty⟩, ⟨0, .ok, .str line⟩] := by
  let u := afterSetd 0 [.request (encode .enccmd)] d s
  let v := afterSetd 1 [] e u
  have hulanes : u.lanes = [[.request (encode .enccmd)], [.request (encode (.setd (quadList e)))]] :=
    congrArg (List.set · 0 _) hlanes
  have hvlanes : v.lanes = [[.request (encode .enccmd)], []] := congrArg (List.set · 1 _) hulanes
  have hu : Run s u := run_request (k := 0) (.none s) (by rw [hlanes]; rfl) (exec_setd_quadList hd _)
  have hv : Run s v := run_request (k := 1) hu (by rw [hulanes]; rfl) (exec_setd_quadList he _)
  obtain ⟨-, line, hline, hexec⟩ := enccmdEncodesTheCommandRegister (acceptedFrom 0 [] v) he
  refine ⟨_, line, run_request hv (by rw [hvlanes]; rfl) hexec, hline, ?_⟩
  simp [v, u, afterSetd, answered_eq_answer, acceptedFrom]

end

/-- Settles O54, by that run: the ENCCMD encodes the intents that lane 1 wrote. -/
theorem anotherSetdMayFallBetweenSetdAndEnccmd : Obligations.AnotherSetdMayFallBetweenSetdAndEnccmd :=
  fun _ _ _ hd he => exists_run_setd_setd_enccmd hd he rfl

end Sys2Proof.Proofs
end
